-- ==== Sys2Proof/Word.lean ====
section
/-! DEFINITION. The words the block moves (00_scope R6, 20_memory R38, 30_encoding R52). -/

namespace Sys2Proof

/-- A register, a bus data word, a request word or a command word (R6: 32 bits). -/
abbrev Word := BitVec 32

/-- One byte of the buffer memory (10_state R29). -/
abbrev Byte := BitVec 8

/-- A bus address (R6: 16 bits). -/
abbrev BusAddr := BitVec 16

/-- The 16-bit CRC register (R6, R30, R80). -/
abbrev Crc := BitVec 16

/-- What the host puts on the bus (R52, R53): the request word and, for a write, the data word.
A read carries no data word; its `data` is not looked at (log entry 11). -/
structure Request where
  word : Word
  data : Word
deriving DecidableEq, Repr

end Sys2Proof
end

