-- ==== Sys2Proof/Config.lean ====
section
/-! DEFINITION. What an implementation fixes, and the free value (00_scope R5, R7). -/

namespace Sys2Proof

/-- BUF_CAP where nothing else is said (R5: "The default is 4096"). -/
def Config.bufCapDefault : Word := 4096#32

/-- The largest BUF_CAP (R5: 1 <= BUF_CAP <= 32768). -/
def Config.bufCapMax : Nat := 32768

/-- FREE VALUE (log entry 1). BUF_RESET: the byte the buffer holds at index `i` after the reset number
`boot`. R7 and R122 leave it OPEN, "a free draw per byte"; nothing can be proved of it. -/
opaque Config.bufReset (boot i : Nat) : Byte

end Sys2Proof
end

