-- ==== Sys2Proof/Syntax.lean ====
section
/-! DEFINITION. The instructions: one constructor per row of the opcode table (30_encoding R65). -/

namespace Sys2Proof

/-- The five instructions of CMFC-1. The two BUS rows are host transactions; the three CMD rows are
the commands a write to the CMD register starts (R52, R2). -/
inductive Instr where
  /-- BUS.WR (R76): write `data` to the bus address `addr`. -/
  | busWr (addr : BusAddr) (data : Word)
  /-- BUS.RD (R77): read the bus address `addr`. -/
  | busRd (addr : BusAddr)
  /-- CRC.CALC (R86): command word 0x00000001. -/
  | crcCalc
  /-- CRC.VERIFY (R87): command word 0x00000002. -/
  | crcVerify
  /-- FLT.DEC (R99): command word 0x00000003 with WIDTH in bits 7:4, every WIDTH 0..15 (R57). -/
  | fltDec (width : BitVec 4)
deriving DecidableEq, Repr

end Sys2Proof
end

