-- ==== Sys2Proof/WellFormed.lean ====
section
/-! DEFINITION. Which instruction terms are the decoder's own: each transaction has one name
(log entry 9). -/

namespace Sys2Proof

/-- The words the three CMD rows of the opcode table match (R65: match and mask). -/
def isCommandWord (d : Word) : Bool :=
  d == 0x00000001#32 || d == 0x00000002#32 || (d &&& 0xFFFFFF0F#32) == 0x00000003#32

/-- A write of a legal command word to CMD is named by the command's own constructor (R64 expands
`crc.calc` to `wr CMD, 0x00000001`), so `busWr 0x0000` is well formed only with a word that no CMD row
matches. Its meaning is given for every word all the same (R70). -/
def Instr.wellFormed : Instr → Bool
  | .busWr addr data => !(addr == 0x0000#16 && isCommandWord data)
  | .busRd _ => true
  | .crcCalc => true
  | .crcVerify => true
  | .fltDec _ => true

end Sys2Proof
end

