-- ==== Sys2Proof/Decode.lean ====
section
/-! DEFINITION. The decoder, total on every request and every command word, and the encoder
(30_encoding R52..R62). -/

namespace Sys2Proof

/-- What a word written to CMD decodes to (R57). -/
inductive Command where
  | crcCalc
  | crcVerify
  | fltDec (width : BitVec 4)
  | illegal
deriving DecidableEq, Repr

/-- Why a request is outside the block's decode (R53). -/
inductive DecodeError where
  /-- Request bits 30:16 are not zero; `write` is bit 31, which R75 asks for. -/
  | requestBits (write : Bool)
deriving DecidableEq, Repr

/-- The decoder's answer: an instruction, or a rejection by name. -/
inductive Decoded where
  | instr (i : Instr)
  | rejected (e : DecodeError)
deriving DecidableEq, Repr

/-- CMD.OP, bits 3:0 (R55). -/
def cmdOp (v : Word) : BitVec 4 := v.extractLsb' 0 4

/-- CMD.WIDTH, bits 7:4 (R55). -/
def cmdWidth (v : Word) : BitVec 4 := v.extractLsb' 4 4

/-- CMD.RSVD, bits 31:8 (R55). -/
def cmdRsvd (v : Word) : BitVec 24 := v.extractLsb' 8 24

/-- `decode_cmd` of R57. -/
def decodeCmd (v : Word) : Command :=
  if cmdRsvd v ≠ 0#24 then .illegal
  else if cmdOp v = 0x1#4 ∧ cmdWidth v = 0#4 then .crcCalc
  else if cmdOp v = 0x2#4 ∧ cmdWidth v = 0#4 then .crcVerify
  else if cmdOp v = 0x3#4 then .fltDec (cmdWidth v)
  else .illegal

/-- Request bit 31, W: 1 is a write (R53). -/
def reqWrite (r : Word) : Bool := r.getLsbD 31

/-- Request bits 30:16, Z (R53). -/
def reqZ (r : Word) : BitVec 15 := r.extractLsb' 16 15

/-- Request bits 15:0, ADDR (R53). -/
def reqAddr (r : Word) : BusAddr := r.extractLsb' 0 16

/-- The instruction a write is: a command where CMD (address 0x0000, R54) takes a legal command word,
else BUS.WR (log entry 9). -/
def decodeWrite (addr : BusAddr) (data : Word) : Instr :=
  if addr = 0x0000#16 then
    match decodeCmd data with
    | .crcCalc => .crcCalc
    | .crcVerify => .crcVerify
    | .fltDec w => .fltDec w
    | .illegal => .busWr addr data
  else .busWr addr data

/-- The decoder of bus requests, total on every pair of words (R53). -/
def decode (r : Request) : Decoded :=
  if reqZ r.word ≠ 0#15 then .rejected (.requestBits (reqWrite r.word))
  else if reqWrite r.word then .instr (decodeWrite (reqAddr r.word) r.data)
  else .instr (.busRd (reqAddr r.word))

/-- The request word of a write, `0x80000000 | ADDR` (R76), or of a read, `0x00000000 | ADDR` (R77). -/
def requestWord (write : Bool) (addr : BusAddr) : Word :=
  (if write then 0x80000000#32 else 0x00000000#32) ||| addr.setWidth 32

/-- The command word with RSVD = 0: OP in bits 3:0, WIDTH in bits 7:4 (R55, R99: `0x00000003 | (w << 4)`). -/
def commandWord (width op : BitVec 4) : Word := op.setWidth 32 ||| width.setWidth 32 <<< 4

/-- The encoder: the words the host puts on the bus for an instruction. A command is a write of its
command word to CMD (R64). A read has no data word: 0 stands there. -/
def encode : Instr → Request
  | .busWr addr data => ⟨requestWord true addr, data⟩
  | .busRd addr => ⟨requestWord false addr, 0#32⟩
  | .crcCalc => ⟨requestWord true 0x0000#16, commandWord 0#4 0x1#4⟩
  | .crcVerify => ⟨requestWord true 0x0000#16, commandWord 0#4 0x2#4⟩
  | .fltDec w => ⟨requestWord true 0x0000#16, commandWord w 0x3#4⟩

/-- The request for an instruction given by its opcode-table bits (`nbits` of them, first word lowest;
bits above are 0). The table mixes two formats (R52): a single word that a CMD row matches is a command
word, carried by a write to CMD; every other one is a request word, with its data word above it
(log entry 10). -/
def tableRequest (nbits w : Nat) : Request :=
  let v := w % 2 ^ nbits
  let first : Word := BitVec.ofNat 32 v
  if nbits ≤ 32 ∧ decodeCmd first ≠ .illegal then ⟨requestWord true 0x0000#16, first⟩
  else ⟨first, BitVec.ofNat 32 (v >>> 32)⟩

/-- The instruction the decoder reads from an opcode-table word. -/
def decodeTableWord (nbits w : Nat) : Option Instr :=
  match decode (tableRequest nbits w) with
  | .instr i => some i
  | .rejected _ => none

end Sys2Proof
end

