-- ==== Sys2Proof/Machine/State.lean ====
section
/-! DEFINITION. The state of one CMFC instance (10_state R15..R33) with the host's side of its port,
and reset (70_reset R120..R123). -/

namespace Sys2Proof.Machine

/-- STATUS.ERR (60_exceptions R106). Codes 0x4..0xF are "never produced", so they have no constructor. -/
inductive ErrCode where
  | none
  | illegalCmd
  | invalidWidth
  | outOfRange
deriving DecidableEq, Repr

/-- The fields of STATUS that anything writes (10_state R20). BUSY is hardwired 0 and the reserved bits
read 0: `Status.word` puts them in (log entry 14). -/
structure Status where
  /-- MATCH, bit 1. -/
  matched : Bool
  /-- ERR, bits 7:4. -/
  err : ErrCode
  /-- LAST_OP, bits 11:8. -/
  lastOp : BitVec 4
deriving DecidableEq, Repr

/-- What can happen to the block from outside, one at a time (R14, R48, R120). -/
inductive HostEvent where
  /-- The host numbered `agent` issues the bus request `req`. -/
  | request (agent : Nat) (req : Request)
  /-- The platform applies reset (R120). -/
  | reset
deriving DecidableEq, Repr

/-- The written bytes of the buffer memory: (index, byte), in the form `Memory.wf` (Ops.lean). An index
that is not listed holds no written byte and reads as BUF_RESET (log entries 1 and 2). -/
abbrev Memory := List Host.Cell

/-- Why the machine stops with a fault: never. The spec gives the block no trap and no stuck state: an
error is a code in STATUS and the block goes on (R111, R113; log entry 12). -/
inductive Fault where
deriving DecidableEq, Repr

/-- Why a step has no meaning. -/
inductive Refusal where
  /-- An arm of `exec` whose instruction has no meaning yet. No arm raises it. Safe. -/
  | notModelled (mnemonic : String)
  /-- Raised by `step` where a host other than the port's owner issues a transaction: "A model refuses
  such a configuration; it does not give it a meaning" (R51, R128, ID6; log entry 8). Safe. -/
  | secondHost
deriving DecidableEq, Repr

/-- The state: the nine registers of R18 and the buffer memory of R29, which R15 calls the whole
architectural state, then four fields of the model's own for the free value and the host's side. -/
structure State where
  /-- CMD, 0x0000 (R19). -/
  cmd : Word
  /-- STATUS, 0x0004 (R20). -/
  status : Status
  /-- OFFSET, 0x0008 (R21). -/
  offset : Word
  /-- LENGTH, 0x000C (R22). -/
  length : Word
  /-- EXPECT, 0x0010 (R23). -/
  expect : Word
  /-- CRC_RESULT, 0x0014 (R24). -/
  crcResult : Word
  /-- FLT_RESULT, 0x0018 (R25). -/
  fltResult : Word
  /-- BUF_SIZE, 0x001C (R26). -/
  bufSize : Word
  /-- BUF_CAP, 0x0020 (R27), constant: no step changes it (log entry 3). -/
  bufCap : Word
  /-- The buffer memory (R29). -/
  buf : Memory
  /-- The model's own: how many resets came after power-on, so that each has a BUF_RESET of its own
  (log entry 1). -/
  boot : Nat
  /-- The model's own: what the host and the platform will still do, in order (R48; log entry 4). -/
  pending : List HostEvent
  /-- The model's own: the host that owns the port, none until one has used it (R51, R118;
  log entry 8). -/
  owner : Option Nat
  /-- The model's own: the data words BUS.RD has returned to the host, newest first (R77;
  log entry 6). -/
  replies : List Word
deriving DecidableEq, Repr

/-- The state after power-on reset of a block whose parameter BUF_CAP is `cap` (R121, R122). -/
def State.resetWith (cap : Word) : State where
  cmd := 0#32
  status := ⟨false, .none, 0#4⟩
  offset := 0#32
  length := 0#32
  expect := 0#32
  crcResult := 0#32
  fltResult := 0#32
  bufSize := 0#32
  bufCap := cap
  buf := []
  boot := 0
  pending := []
  owner := none
  replies := []

/-- The machine right after reset, with the default BUF_CAP (R5, R121). -/
def State.reset : State := State.resetWith Config.bufCapDefault

end Sys2Proof.Machine
end

