-- ==== Sys2Proof/Machine/Flags.lean ====
section
/-! DEFINITION. STATUS: its codes, its word, and what a command that ends without error writes into it
(10_state R20, R33; 60_exceptions R106). -/

namespace Sys2Proof.Machine

/-- The code of an error (R106). -/
def ErrCode.code : ErrCode → BitVec 4
  | .none => 0x0#4
  | .illegalCmd => 0x1#4
  | .invalidWidth => 0x2#4
  | .outOfRange => 0x3#4

/-- STATUS as the host reads it: `(20 zeros, LAST_OP, ERR, 2 zeros, MATCH, 0)` from bit 31 down
(R20, R74). Bit 0 is BUSY, hardwired 0. -/
def Status.word (st : Status) : Word :=
  (0#20 ++ st.lastOp ++ st.err.code ++ 0#2 ++ BitVec.ofBool st.matched ++ 0#1 :
    BitVec (20 + 4 + 4 + 2 + 1 + 1))

/-- A command that ends without error writes ERR = NONE and MATCH (R86, R87, R99); LAST_OP was written
when CMD was (R70). -/
def Status.succeed (m : Bool) (st : Status) : Status := { st with matched := m, err := .none }

/-- What `raise E` writes into STATUS: ERR = E and MATCH = 0 (R111). -/
def Status.fail (e : ErrCode) (st : Status) : Status := { st with matched := false, err := e }

/-- MATCH after CRC.VERIFY: the low bytes agree and the high bytes agree (R87: "both bytes must
match"). -/
def matchFlag (c : Crc) (expect : Word) : Bool :=
  c.extractLsb' 0 8 == expect.extractLsb' 0 8 && c.extractLsb' 8 8 == expect.extractLsb' 8 8

end Sys2Proof.Machine
end

