-- ==== Sys2Proof/Machine/Ops.lean ====
section
/-! DEFINITION. The named operations: the buffer memory, the registers, the reply to a read, latching
CMD, taking an error, and reset. -/

namespace Sys2Proof.Machine

/-! The buffer memory (10_state R29). -/

/-- The byte last written at index `i`; none where nothing was written since reset. -/
def Memory.lookup : Memory → Nat → Option Byte
  | [], _ => none
  | (a, b) :: m, i => if a = i then some b else Memory.lookup m i

/-- `MemWrite(i, 1, v)` (00_scope R9), keeping the indices strictly rising. -/
def Memory.store : Memory → Nat → Byte → Memory
  | [], i, v => [(i, v)]
  | (a, b) :: m, i, v =>
    if i < a then (i, v) :: (a, b) :: m
    else if i = a then (i, v) :: m
    else (a, b) :: Memory.store m i v

/-- The canonical form: indices strictly rising and inside `buf[0 .. cap-1]` (R29). What an unlisted
index holds is no written byte at all, so no entry can be equal to it (log entry 2). -/
abbrev Memory.wf (cap : Nat) (m : Memory) : Prop :=
  m.Pairwise (fun c d => c.1 < d.1) ∧ ∀ c ∈ m, c.1 < cap

/-- `buf[i]`: the byte last written, else the byte BUF_RESET put there (R29, R7; log entry 1). -/
def State.bufByte (s : State) (i : Nat) : Byte :=
  (Memory.lookup s.buf i).getD (Config.bufReset s.boot i)

/-- The host's write of one buffer byte (R72). -/
def State.storeByte (i : Nat) (v : Byte) (s : State) : State := { s with buf := Memory.store s.buf i v }

/-! The registers (10_state R18). -/

/-- The nine registers of R18. -/
inductive Reg where
  | cmd | status | offset | length | expect | crcResult | fltResult | bufSize | bufCap
deriving DecidableEq, Repr

/-- A register's bus address (R18). -/
def Reg.addr : Reg → BusAddr
  | .cmd => 0x0000#16
  | .status => 0x0004#16
  | .offset => 0x0008#16
  | .length => 0x000C#16
  | .expect => 0x0010#16
  | .crcResult => 0x0014#16
  | .fltResult => 0x0018#16
  | .bufSize => 0x001C#16
  | .bufCap => 0x0020#16

/-- Bits 15:0, zero-extended (R23, R24, R71, R74: bits 31:16 read 0). -/
def low16 (v : Word) : Word := (v.extractLsb' 0 16).setWidth 32

/-- What BUF_SIZE stores for a written `v`: `min(v, BUF_CAP)`, unsigned (R26, WARL). -/
def clampSize (v cap : Word) : Word := if v.toNat ≤ cap.toNat then v else cap

/-- The 32-bit value a register reads as (R74). -/
def State.readReg (s : State) : Reg → Word
  | .cmd => s.cmd
  | .status => s.status.word
  | .offset => s.offset
  | .length => s.length
  | .expect => low16 s.expect
  | .crcResult => low16 s.crcResult
  | .fltResult => s.fltResult
  | .bufSize => s.bufSize
  | .bufCap => s.bufCap

/-- A write to a register of class REG under its field rules (R71). The read-only ones ignore it. CMD is
not of that class (R54): its write is `State.latchCmd` and runs a command (R70), so it changes nothing
here. -/
def State.writeReg (r : Reg) (d : Word) (s : State) : State :=
  match r with
  | .cmd => s
  | .status => s
  | .offset => { s with offset := d }
  | .length => { s with length := d }
  | .expect => { s with expect := low16 d }
  | .crcResult => s
  | .fltResult => s
  | .bufSize => { s with bufSize := clampSize d s.bufCap }
  | .bufCap => s

/-- The data word a read returns goes to the host and nowhere else (R77; log entry 6). -/
def State.reply (w : Word) (s : State) : State := { s with replies := w :: s.replies }

/-! Running a command. -/

/-- The first half of a CMD write: CMD takes all 32 bits, LAST_OP takes OP (R70, R19, R20). -/
def State.latchCmd (d : Word) (s : State) : State :=
  { s with cmd := d, status := { s.status with lastOp := cmdOp d } }

/-- TAKING AN ERROR: `raise E` (R111). It writes ERR and MATCH; nothing is saved, no mode changes and
nothing moves into a handler. There is no return from it (R113): the next command overwrites both. -/
def State.raise (e : ErrCode) (s : State) : State := { s with status := s.status.fail e }

/-- A CRC command that ends without error (R86, R87): CRC_RESULT takes the CRC, low byte in bits 7:0
(R84). -/
def State.finishCrc (c : Crc) (m : Bool) (s : State) : State :=
  { s with crcResult := c.setWidth 32, status := s.status.succeed m }

/-- A FLT.DEC that ends without error (R99): FLT_RESULT takes the staged word. -/
def State.finishFlt (w : Word) (s : State) : State :=
  { s with fltResult := w, status := s.status.succeed false }

/-! Reset, and the host's port. -/

/-- The platform applies reset between two transactions (R120..R122): every register at its reset value,
BUF_CAP its parameter, the buffer a new BUF_RESET. What the host has still to do, has read, and the
port's owner are not the block's (log entry 7). -/
def State.platformReset (s : State) : State :=
  { State.resetWith s.bufCap with
    boot := s.boot + 1, pending := s.pending, owner := s.owner, replies := s.replies }

/-- May the host numbered `agent` use the port? One host per instance (R51, R118; log entry 8). -/
def State.admits (agent : Nat) (s : State) : Bool :=
  match s.owner with
  | none => true
  | some o => o == agent

/-- The port takes the host's next request: it leaves the host's list, and the port is that host's. -/
def State.accept (agent : Nat) (rest : List HostEvent) (s : State) : State :=
  { s with pending := rest, owner := some agent }

/-- `s` with the request `r` of the port's owner as the very next thing the host does. -/
def State.place (r : Request) (s : State) : State :=
  { s with pending := .request (s.owner.getD 0) r :: s.pending }

end Sys2Proof.Machine
end

