-- ==== Sys2Proof/Machine/Operands.lean ====
section
/-! DEFINITION. Operand forms: the class of a bus address (30_encoding R54), the window of a command
(20_memory R46, R47) and the width of FLT.DEC (30_encoding R58). -/

namespace Sys2Proof.Machine

/-- The class of a bus address (R54). -/
inductive AddrClass where
  /-- ADDR = 0x0000. -/
  | cmd
  /-- One of the eight other register addresses. -/
  | reg (r : Reg)
  /-- A buffer byte, with its index. -/
  | buf (i : Nat)
  /-- Every other address, a misaligned register address among them (R28, R40). -/
  | rsvd
deriving DecidableEq, Repr

/-- The register-space part of R54. -/
def classifyLow (a : BusAddr) : AddrClass :=
  if a = Reg.cmd.addr then .cmd
  else if a = Reg.status.addr then .reg .status
  else if a = Reg.offset.addr then .reg .offset
  else if a = Reg.length.addr then .reg .length
  else if a = Reg.expect.addr then .reg .expect
  else if a = Reg.crcResult.addr then .reg .crcResult
  else if a = Reg.fltResult.addr then .reg .fltResult
  else if a = Reg.bufSize.addr then .reg .bufSize
  else if a = Reg.bufCap.addr then .reg .bufCap
  else .rsvd

/-- R54: the class of `a` in a block whose BUF_CAP is `cap`. -/
def classify (cap : Nat) (a : BusAddr) : AddrClass :=
  if 0x8000 ≤ a.toNat then
    if a.toNat - 0x8000 < cap then .buf (a.toNat - 0x8000) else .rsvd
  else classifyLow a

/-- The class of an address in this state's block. -/
def State.classOf (s : State) (a : BusAddr) : AddrClass := classify s.bufCap.toNat a

/-- The buffer index that BUS.WR to `a` stores to, if it stores a buffer byte (R72). -/
def State.storedIndex (s : State) (a : BusAddr) : Option Nat :=
  match s.classOf a with
  | .cmd => none
  | .reg _ => none
  | .buf i => some i
  | .rsvd => none

/-- `window_ok` (R46), the sum on unbounded integers. -/
def State.windowOk (s : State) (off len : Nat) : Bool := decide (off + len ≤ s.bufSize.toNat)

/-- `MemRead(off, n)`: the bytes in increasing index order (R47, R9). -/
def State.memRead (s : State) (off n : Nat) : List Byte :=
  (List.range n).map fun k => s.bufByte (off + k)

/-- The window of the CRC commands: OFFSET and LENGTH (R59). -/
def State.crcWindow (s : State) : List Byte := s.memRead s.offset.toNat s.length.toNat

/-- Is the CRC window valid (R46)? -/
def State.crcWindowOk (s : State) : Bool := s.windowOk s.offset.toNat s.length.toNat

/-- Is a FLT.DEC width legal: 2 or 4 (R58, R108)? -/
def legalWidth (w : BitVec 4) : Bool := w == 2#4 || w == 4#4

/-- The window of FLT.DEC: OFFSET and the width in bytes (R58, R59). -/
def State.fltWindow (s : State) (w : BitVec 4) : List Byte := s.memRead s.offset.toNat w.toNat

/-- Is the window of FLT.DEC valid (R46)? -/
def State.fltWindowOk (s : State) (w : BitVec 4) : Bool := s.windowOk s.offset.toNat w.toNat

end Sys2Proof.Machine
end

