-- ==== Sys2Proof/Machine/Crc.lean ====
section
/-! DEFINITION. The CRC16/Modbus generator (41_crc16 R80..R92) and the commands CRC.CALC and
CRC.VERIFY. -/

namespace Sys2Proof.Machine

/-- `crc_bit` (R81): test bit 0, shift right by one logically, XOR with 0xA001 if it was 1. -/
def crcBit (c : Crc) : Crc := if c.getLsbD 0 then (c >>> 1) ^^^ 0xA001#16 else c >>> 1

/-- `n` bit steps. -/
def crcBits : Nat → Crc → Crc
  | 0, t => t
  | n + 1, t => crcBits n (crcBit t)

/-- `crc_byte` (R82): XOR the zero-extended byte in, then eight bit steps. -/
def crcByte (c : Crc) (b : Byte) : Crc := crcBits 8 (c ^^^ b.setWidth 16)

/-- The value the CRC register starts from (R80). -/
def crcInit : Crc := 0xFFFF#16

/-- `crc16` (R83): the byte step folded over the bytes, first to last. -/
def crc16 (bytes : List Byte) : Crc := bytes.foldl crcByte crcInit

/-- The two result bytes, low first (R84). -/
def resultBytes (c : Crc) : List Byte := [c.extractLsb' 0 8, c.extractLsb' 8 8]

/-- `exec_crc_calc` (R86), in the state where the CMD write has stored CMD and LAST_OP (R70). -/
def State.crcCalc (s : State) : State :=
  if s.crcWindowOk then s.finishCrc (crc16 s.crcWindow) false else s.raise .outOfRange

/-- `exec_crc_verify` (R87), in the state where the CMD write has stored CMD and LAST_OP (R70). -/
def State.crcVerify (s : State) : State :=
  if s.crcWindowOk then s.finishCrc (crc16 s.crcWindow) (matchFlag (crc16 s.crcWindow) s.expect)
  else s.raise .outOfRange

/-- CRC.CALC: the write of 0x00000001 to CMD, which runs the command (R86, R64, R70). -/
def execCrcCalc (s : State) : Host.Outcome State Fault Refusal :=
  .next (s.latchCmd (commandWord 0#4 0x1#4)).crcCalc

/-- CRC.VERIFY: the write of 0x00000002 to CMD, which runs the command (R87, R64, R70). -/
def execCrcVerify (s : State) : Host.Outcome State Fault Refusal :=
  .next (s.latchCmd (commandWord 0#4 0x2#4)).crcVerify

end Sys2Proof.Machine
end

