-- ==== Sys2Proof/Machine/Float.lean ====
section
/-! DEFINITION. The float codec (42_float_codec R95..R102) and the command FLT.DEC. -/

namespace Sys2Proof.Machine

/-- The staging area read as one word (R95): byte 0 most significant, a byte the window does not give is
zero (R96). No bit is changed (R97). -/
def stagedWord (bs : List Byte) : Word :=
  (bs.getD 0 0#8 ++ bs.getD 1 0#8 ++ bs.getD 2 0#8 ++ bs.getD 3 0#8 : BitVec (8 + 8 + 8 + 8))

/-- `exec_flt_dec(w)` (R99), in the state where the CMD write has stored CMD and LAST_OP (R70). The width
is checked before the window (R112). -/
def State.fltDec (w : BitVec 4) (s : State) : State :=
  if legalWidth w then
    if s.fltWindowOk w then s.finishFlt (stagedWord (s.fltWindow w)) else s.raise .outOfRange
  else s.raise .invalidWidth

/-- FLT.DEC: the write of `0x00000003 | (w << 4)` to CMD, which runs the command (R99, R64,
R70). -/
def execFltDec (w : BitVec 4) (s : State) : Host.Outcome State Fault Refusal :=
  .next ((s.latchCmd (commandWord w 0x3#4)).fltDec w)

/-! What a pattern means as a number, for the reader of FLT_RESULT and for tests (R98). The block never
computes it. -/

/-- A binary32 datum (R98; log entry 16). -/
inductive Binary32 where
  | infinity (negative : Bool)
  | nan (quiet : Bool)
  /-- `(-1)^negative * significand * 2^exponent`; a zero keeps its sign. -/
  | finite (negative : Bool) (significand : Nat) (exponent : Int)
deriving DecidableEq, Repr

/-- `binary32_value` (R98). -/
def binary32Value (word : Word) : Binary32 :=
  let s := word.getLsbD 31
  let e := (word.extractLsb' 23 8).toNat
  let f := (word.extractLsb' 0 23).toNat
  if e = 255 then
    if f = 0 then .infinity s else .nan (word.getLsbD 22)
  else if e = 0 then .finite s f (-149)
  else .finite s (2 ^ 23 + f) ((e : Int) - 150)

end Sys2Proof.Machine
end

