-- ==== Sys2Proof/Machine/Bus.lean ====
section
/-! DEFINITION. The host bus transactions BUS.WR and BUS.RD (40_host_bus R70..R79). -/

namespace Sys2Proof.Machine

/-- A write to CMD (R70): store the word, then run the command it encodes, in one step. -/
def State.writeCmd (d : Word) (s : State) : State :=
  match decodeCmd d with
  | .crcCalc => (s.latchCmd d).crcCalc
  | .crcVerify => (s.latchCmd d).crcVerify
  | .fltDec w => (s.latchCmd d).fltDec w
  | .illegal => (s.latchCmd d).raise .illegalCmd

/-- `bus_write` (R76), Z being 0. -/
def State.busWrite (a : BusAddr) (d : Word) (s : State) : State :=
  match s.classOf a with
  | .cmd => s.writeCmd d
  | .reg r => s.writeReg r d
  | .buf i => s.storeByte i (d.extractLsb' 0 8)
  | .rsvd => s

/-- The word `bus_read` returns (R77), Z being 0. -/
def State.busRead (s : State) (a : BusAddr) : Word :=
  match s.classOf a with
  | .cmd => s.readReg .cmd
  | .reg r => s.readReg r
  | .buf i => (s.bufByte i).setWidth 32
  | .rsvd => 0#32

/-- BUS.WR (R76). -/
def execBusWr (a : BusAddr) (d : Word) (s : State) : Host.Outcome State Fault Refusal :=
  .next (s.busWrite a d)

/-- BUS.RD (R77): the word goes to the host; the block does not change. -/
def execBusRd (a : BusAddr) (s : State) : Host.Outcome State Fault Refusal :=
  .next (s.reply (s.busRead a))

/-- A request outside the decode (R53, R75): a write has no effect, a read returns 0. -/
def execRejected (e : DecodeError) (s : State) : Host.Outcome State Fault Refusal :=
  match e with
  | .requestBits true => .next s
  | .requestBits false => .next (s.reply 0#32)

end Sys2Proof.Machine
end

