-- ==== Sys2Proof/Machine/Dispatch.lean ====
section
/-! DEFINITION. One arm per instruction. -/

namespace Sys2Proof.Machine

def exec (i : Instr) (s : State) : Host.Outcome State Fault Refusal :=
  match i with
  | .busWr addr data => Sys2Proof.Machine.execBusWr addr data s
  | .busRd addr => Sys2Proof.Machine.execBusRd addr s
  | .crcCalc => Sys2Proof.Machine.execCrcCalc s
  | .crcVerify => Sys2Proof.Machine.execCrcVerify s
  | .fltDec width => Sys2Proof.Machine.execFltDec width s

end Sys2Proof.Machine
end

