-- ==== Sys2Proof/Machine/Step.lean ====
section
/-! DEFINITION. One step: the next thing the host or the platform does (00_scope R14, 10_state R17,
20_memory R48, 70_reset R120). -/

namespace Sys2Proof.Machine

/-- One step. With nothing to do the block waits (R123; log entry 5). A reset is applied between
transactions. A request of the port's owner is decoded and run; one of another host is refused (R51). -/
def step (s : State) : Host.Outcome State Fault Refusal :=
  match s.pending with
  | [] => .next s
  | .reset :: rest => .next { s with pending := rest }.platformReset
  | .request agent req :: rest =>
    if s.admits agent then
      match decode req with
      | .instr i => exec i (s.accept agent rest)
      | .rejected e => execRejected e (s.accept agent rest)
    else .refused .secondHost

/-- `s` with the opcode-table word `w` as the host's very next transaction (log entry 10). -/
def State.withFetchWord (s : State) (nbits w : Nat) : State := s.place (tableRequest nbits w)

end Sys2Proof.Machine
end

