-- ==== Sys2Proof/Machine/HostText.lean ====
section
/-! DEFINITION. The host's listing: transactions, pseudo-instructions and their text (30_encoding R63,
R64; log entry 15). It says which requests a listing puts on the bus; what they do is `step`'s. -/

namespace Sys2Proof.Machine

/-- One line of a listing: the two transactions of R63 and the pseudo-instructions of R64. -/
inductive HostLine where
  | wr (addr : BusAddr) (data : Word)
  | rd (addr : BusAddr)
  | crcCalc
  | crcVerify
  | fltDec (w : BitVec 4)
  | wb (i : Nat) (b : Byte)
  | load (i : Nat) (bytes : List Byte)
  | crc (off len : Word)
  | verify (off len : Word) (e0 e1 : Byte)
  | fdec (off : Word) (w : BitVec 4)
deriving DecidableEq, Repr

/-- The request of `wr` (R63: request 0x80000000 | addr). -/
def wrRequest (addr : BusAddr) (data : Word) : Request := ⟨requestWord true addr, data⟩

/-- The request of `rd` (R63: request 0x00000000 | addr). -/
def rdRequest (addr : BusAddr) : Request := ⟨requestWord false addr, 0#32⟩

/-- `buf+<i>` stands for address 0x8000 + i (R63); none where that is no 16-bit address. -/
def bufAddr (i : Nat) : Option BusAddr :=
  if i < 0x8000 then some (BitVec.ofNat 16 (0x8000 + i)) else none

/-- `wb <i>, b0`; `wb <i+1>, b1`; ... (R64). DESIGN CHOICE, safe: no byte at all is no transaction,
whatever `i` is (log entry 15). -/
def expandLoad : Nat → List Byte → Option (List Request)
  | _, [] => some []
  | i, b :: bs =>
    match bufAddr i, expandLoad (i + 1) bs with
    | some a, some rs => some (wrRequest a (b.setWidth 32) :: rs)
    | _, _ => none

/-- The transactions a line stands for, in order (R63, R64); none where a buffer byte has no address. -/
def HostLine.expand : HostLine → Option (List Request)
  | .wr a d => some [wrRequest a d]
  | .rd a => some [rdRequest a]
  | .crcCalc => some [wrRequest Reg.cmd.addr 0x00000001#32]
  | .crcVerify => some [wrRequest Reg.cmd.addr 0x00000002#32]
  | .fltDec w => some [wrRequest Reg.cmd.addr (0x00000003#32 ||| (w.setWidth 32 <<< 4))]
  | .wb i b => (bufAddr i).map fun a => [wrRequest a (b.setWidth 32)]
  | .load i bytes => expandLoad i bytes
  | .crc off len =>
    some [wrRequest Reg.offset.addr off, wrRequest Reg.length.addr len,
      wrRequest Reg.cmd.addr 0x00000001#32]
  | .verify off len e0 e1 =>
    some [wrRequest Reg.offset.addr off, wrRequest Reg.length.addr len,
      wrRequest Reg.expect.addr ((e1.setWidth 32 <<< 8) ||| e0.setWidth 32),
      wrRequest Reg.cmd.addr 0x00000002#32]
  | .fdec off w =>
    some [wrRequest Reg.offset.addr off,
      wrRequest Reg.cmd.addr (0x00000003#32 ||| (w.setWidth 32 <<< 4))]

/-! The text of a line. -/

/-- A space or a tab. -/
def isBlank (c : Char) : Bool := c == ' ' || c == '\t'

/-- The characters without blanks at either end. -/
def trimBlanks (cs : List Char) : List Char :=
  ((cs.dropWhile isBlank).reverse.dropWhile isBlank).reverse

/-- The pieces between the separators. -/
def splitChars (sep : Char) : List Char → List (List Char)
  | [] => [[]]
  | c :: cs =>
    if c == sep then [] :: splitChars sep cs
    else
      match splitChars sep cs with
      | [] => [[c]]
      | p :: ps => (c :: p) :: ps

/-- What stands before a comment (`;`) or a shown result (`->`) (R63). -/
def dropComment : List Char → List Char
  | [] => []
  | ';' :: _ => []
  | '-' :: '>' :: _ => []
  | c :: cs => c :: dropComment cs

/-- A digit's value, decimal or hexadecimal. -/
def digitValue (c : Char) : Option Nat :=
  let n := c.toNat
  if 48 ≤ n ∧ n ≤ 57 then some (n - 48)
  else if 97 ≤ n ∧ n ≤ 102 then some (n - 87)
  else if 65 ≤ n ∧ n ≤ 70 then some (n - 55)
  else none

/-- Digits in a base, most significant first, after `acc`. -/
def parseDigits (base : Nat) : List Char → Nat → Option Nat
  | [], acc => some acc
  | c :: cs, acc =>
    match digitValue c with
    | some v => if v < base then parseDigits base cs (acc * base + v) else none
    | none => none

/-- A number: decimal or 0x-hexadecimal (R63). -/
def parseNumber (cs : List Char) : Option Nat :=
  match cs with
  | [] => none
  | ['0', 'x'] => none
  | '0' :: 'x' :: ds => parseDigits 16 ds 0
  | ds => parseDigits 10 ds 0

/-- A number below `2^w`. -/
def parseBits (w : Nat) (cs : List Char) : Option (BitVec w) :=
  match parseNumber cs with
  | some n => if n < 2 ^ w then some (BitVec.ofNat w n) else none
  | none => none

/-- The register names of R63. -/
def regNamed (cs : List Char) : Option Reg :=
  if cs = ['C', 'M', 'D'] then some .cmd
  else if cs = ['S', 'T', 'A', 'T', 'U', 'S'] then some .status
  else if cs = ['O', 'F', 'F', 'S', 'E', 'T'] then some .offset
  else if cs = ['L', 'E', 'N', 'G', 'T', 'H'] then some .length
  else if cs = ['E', 'X', 'P', 'E', 'C', 'T'] then some .expect
  else if cs = ['C', 'R', 'C', '_', 'R', 'E', 'S', 'U', 'L', 'T'] then some .crcResult
  else if cs = ['F', 'L', 'T', '_', 'R', 'E', 'S', 'U', 'L', 'T'] then some .fltResult
  else if cs = ['B', 'U', 'F', '_', 'S', 'I', 'Z', 'E'] then some .bufSize
  else if cs = ['B', 'U', 'F', '_', 'C', 'A', 'P'] then some .bufCap
  else none

/-- `<addr>` (R63): a register name, `buf+<i>`, or a 16-bit number. -/
def parseAddr (cs : List Char) : Option BusAddr :=
  match cs with
  | 'b' :: 'u' :: 'f' :: '+' :: ds => (parseNumber ds).bind bufAddr
  | ds =>
    match regNamed ds with
    | some r => some r.addr
    | none => parseBits 16 ds

/-- Every operand a byte. -/
def parseBytes : List (List Char) → Option (List Byte)
  | [] => some []
  | p :: ps =>
    match parseBits 8 p, parseBytes ps with
    | some b, some bs => some (b :: bs)
    | _, _ => none

/-- A line's first word, and its operands between commas. -/
def splitLine (cs : List Char) : List Char × List (List Char) :=
  let body := trimBlanks (dropComment cs)
  let name := body.takeWhile fun c => !isBlank c
  let rest := trimBlanks (body.drop name.length)
  (name, if rest = [] then [] else (splitChars ',' rest).map trimBlanks)

/-- The line a text stands for (R63, R64); `some none` for a line with no transaction on it. DESIGN CHOICE,
safe: a `load <i>` with no byte is a line of the syntax, and it puts no transaction on the bus (log
entry 15). -/
def parseLine (cs : List Char) : Option (Option HostLine) :=
  match splitLine cs with
  | ([], []) => some none
  | (['w', 'r'], [a, d]) =>
    (parseAddr a).bind fun a => (parseBits 32 d).map fun d => some (.wr a d)
  | (['r', 'd'], [a]) => (parseAddr a).map fun a => some (.rd a)
  | (['c', 'r', 'c', '.', 'c', 'a', 'l', 'c'], []) => some (some .crcCalc)
  | (['c', 'r', 'c', '.', 'v', 'e', 'r', 'i', 'f', 'y'], []) => some (some .crcVerify)
  | (['f', 'l', 't', '.', 'd', 'e', 'c'], [w]) => (parseBits 4 w).map fun w => some (.fltDec w)
  | (['w', 'b'], [i, b]) =>
    (parseNumber i).bind fun i => (parseBits 8 b).map fun b => some (.wb i b)
  | (['l', 'o', 'a', 'd'], i :: bs) =>
    (parseNumber i).bind fun i => (parseBytes bs).map fun bs => some (.load i bs)
  | (['c', 'r', 'c'], [o, l]) =>
    (parseBits 32 o).bind fun o => (parseBits 32 l).map fun l => some (.crc o l)
  | (['v', 'e', 'r', 'i', 'f', 'y'], [o, l, e0, e1]) =>
    (parseBits 32 o).bind fun o => (parseBits 32 l).bind fun l =>
      (parseBits 8 e0).bind fun e0 => (parseBits 8 e1).map fun e1 => some (.verify o l e0 e1)
  | (['f', 'd', 'e', 'c'], [o, w]) =>
    (parseBits 32 o).bind fun o => (parseBits 4 w).map fun w => some (.fdec o w)
  | _ => none

/-- The requests of a listing, line after line; none where a line is not in the syntax. -/
def assembleLines : List (List Char) → Option (List Request)
  | [] => some []
  | l :: ls =>
    match parseLine l, assembleLines ls with
    | some none, some rs => some rs
    | some (some h), some rs => h.expand.map (· ++ rs)
    | _, _ => none

/-- The requests of a listing, one transaction a line (R63). -/
def assemble (text : List Char) : Option (List Request) := assembleLines (splitChars '\n' text)

/-- The host numbered `agent` is going to issue these requests, in order, after what it had to do. -/
def State.enqueue (agent : Nat) (rs : List Request) (s : State) : State :=
  { s with pending := s.pending ++ rs.map (HostEvent.request agent) }

end Sys2Proof.Machine
end

