-- ==== Sys2Proof/Safety.lean ====
section
/-! DEFINITION. What the states of a run have in common, and when a register holds a result. -/

namespace Sys2Proof.Machine

/-- A step that went on: no fault and no refusal. -/
def WentOn (o : Host.Outcome State Fault Refusal) : Prop := ∃ t, o = .next t

/-- The command is one that runs past its operand checks, window apart (R57, R58). -/
def runnable : Command → Bool
  | .crcCalc => true
  | .crcVerify => true
  | .fltDec w => legalWidth w
  | .illegal => false

/-- BUF_CAP is a legal parameter and BUF_SIZE is at most BUF_CAP (R5, R26). -/
def State.sizesLegal (s : State) : Prop :=
  1 ≤ s.bufCap.toNat ∧ s.bufCap.toNat ≤ Config.bufCapMax ∧ s.bufSize.toNat ≤ s.bufCap.toNat

/-- The reserved bits of EXPECT and CRC_RESULT are 0 (R23, R24, R28). -/
def State.reservedZero (s : State) : Prop :=
  s.expect.extractLsb' 16 16 = 0#16 ∧ s.crcResult.extractLsb' 16 16 = 0#16

/-- STATUS tells of the last word written to CMD (R20, R106..R109): LAST_OP is its OP, MATCH is 1 only
after a CRC.VERIFY without error, and each error code is one that word can end with. ERR = NONE with an
illegal word stands only for "no command since reset", where CMD is 0 (R20). -/
def State.statusExplained (s : State) : Prop :=
  s.status.lastOp = cmdOp s.cmd ∧
  (s.status.matched = true → s.status.err = .none ∧ decodeCmd s.cmd = .crcVerify) ∧
  match s.status.err with
  | .none => s.cmd = 0#32 ∨ runnable (decodeCmd s.cmd) = true
  | .illegalCmd => decodeCmd s.cmd = .illegal
  | .invalidWidth => ∃ w, decodeCmd s.cmd = .fltDec w ∧ legalWidth w = false
  | .outOfRange => runnable (decodeCmd s.cmd) = true

/-- The invariant of every run. -/
def State.Inv (s : State) : Prop :=
  s.sizesLegal ∧ s.reservedZero ∧ s.statusExplained ∧ Memory.wf s.bufCap.toNat s.buf

/-- CRC_RESULT is a result (R125): LAST_OP is 1 or 2 and ERR = NONE. -/
def State.crcResultFresh (s : State) : Prop :=
  (s.status.lastOp = 0x1#4 ∨ s.status.lastOp = 0x2#4) ∧ s.status.err = .none

/-- FLT_RESULT is a result (R125): LAST_OP = 3 and ERR = NONE. -/
def State.fltResultFresh (s : State) : Prop := s.status.lastOp = 0x3#4 ∧ s.status.err = .none

/-- MATCH is meaningful (R125): LAST_OP = 2 and ERR = NONE. -/
def State.matchFresh (s : State) : Prop := s.status.lastOp = 0x2#4 ∧ s.status.err = .none

/-- The host has written every byte of the window since reset (R124, step 2). -/
def State.windowWritten (s : State) (off n : Nat) : Prop :=
  ∀ k, k < n → Memory.lookup s.buf (off + k) ≠ none

/-- The host and the block see the same registers and the same buffer bytes in both states, whatever the
two hold besides (R15). -/
def State.sameBlock (s t : State) : Prop :=
  (∀ r, s.readReg r = t.readReg r) ∧ ∀ i, s.bufByte i = t.bufByte i

end Sys2Proof.Machine
end

