-- ==== Sys2Proof/Certificates/Slice0/Obligations.lean ====
section
/-! DEFINITION. The statements for the provers. Each docstring names the rules it rests on. -/

open Sys2Proof Sys2Proof.Machine

/-! Encoding. -/

/-- 30_encoding R53, R55, R64: decoding what the encoder writes gives the instruction back, for every
well-formed instruction and every operand value. -/
def Obligations.DecodeInvertsEncode : Prop :=
  ∀ i : Instr, i.wellFormed = true → decode (encode i) = .instr i

/-- The other direction: a decoded instruction is well formed and encodes to the request it was read from
(the data word apart where the request is a read, which has none: R53). -/
def Obligations.EncodeInvertsDecode : Prop :=
  ∀ (r : Request) (i : Instr), decode r = .instr i →
    i.wellFormed = true ∧ (encode i).word = r.word ∧ (reqWrite r.word = true → (encode i).data = r.data)

/-- 30_encoding R57, R58: the words of each command, and nothing else is legal. -/
def Obligations.CommandWordsAreExactlyTheEighteen : Prop :=
  ∀ v : Word,
    (decodeCmd v = .crcCalc ↔ v.toNat = 1) ∧
    (decodeCmd v = .crcVerify ↔ v.toNat = 2) ∧
    (∀ w : BitVec 4, decodeCmd v = .fltDec w ↔ v.toNat = 3 + 16 * w.toNat) ∧
    (decodeCmd v = .illegal ↔ v.toNat ≠ 1 ∧ v.toNat ≠ 2 ∧ ∀ k, k < 16 → v.toNat ≠ 3 + 16 * k)

/-- 30_encoding R65: the command decoder written from the three CMD rows' match and mask and the
default. -/
def Obligations.CommandDecoderFollowsTheTableRows : Prop :=
  ∀ v : Word, decodeCmd v =
    if v &&& 0xFFFFFFFF#32 = 0x00000001#32 then .crcCalc
    else if v &&& 0xFFFFFFFF#32 = 0x00000002#32 then .crcVerify
    else if v &&& 0xFFFFFF0F#32 = 0x00000003#32 then .fltDec (v.extractLsb' 4 4)
    else .illegal

/-- 30_encoding R53, R65: the two BUS rows' match and mask; a request no row matches is rejected. A write is
the instruction that encodes to it (the naming of log entry 9). -/
def Obligations.RequestDecoderFollowsTheTableRows : Prop :=
  ∀ r : Request,
    (r.word &&& 0xFFFF0000#32 = 0x00000000#32 → decode r = .instr (.busRd (r.word.extractLsb' 0 16))) ∧
    (r.word &&& 0xFFFF0000#32 = 0x80000000#32 → ∃ i, decode r = .instr i ∧ encode i = r) ∧
    (r.word &&& 0xFFFF0000#32 ≠ 0x00000000#32 → r.word &&& 0xFFFF0000#32 ≠ 0x80000000#32 →
      decode r = .rejected (.requestBits (r.word.getLsbD 31)))

/-- One word of each table row, written out from its encoding string, decodes to its instruction. That a
bare word is read as a command word where one matches is the model's choice (log entry 10). -/
def Obligations.SampleTableWordsDecode : Prop :=
  decodeTableWord 32 0b10000000000000000000000000001000 = some (.busWr 0x0008#16 0#32) ∧
  decodeTableWord 32 0b00000000000000000000000000000100 = some (.busRd 0x0004#16) ∧
  decodeTableWord 32 0b00000000000000000000000000000001 = some .crcCalc ∧
  decodeTableWord 32 0b00000000000000000000000000000010 = some .crcVerify ∧
  decodeTableWord 32 0b00000000000000000000000001000011 = some (.fltDec 4#4)

/-! The step. -/

/-- 10_state R17, 20_memory R48: a step runs the instruction that the host's next request decodes to. The
port's owner (log entry 8) and the list of what the host will do (log entry 4) are the model's. -/
def Obligations.StepRunsDecodedInstruction : Prop :=
  ∀ (s : State) (agent : Nat) (r : Request) (rest : List HostEvent) (i : Instr),
    s.pending = .request agent r :: rest → s.owner = none ∨ s.owner = some agent →
    decode r = .instr i → step s = exec i { s with pending := rest, owner := some agent }

/-- 40_host_bus R75: a request with Z != 0, or to a reserved address (10_state R28), has no effect as a
write and returns 0 as a read. -/
def Obligations.ReservedRequestsReadZeroAndIgnoreWrites : Prop :=
  ∀ (s : State) (agent : Nat) (r : Request) (rest : List HostEvent),
    s.pending = .request agent r :: rest → s.owner = none ∨ s.owner = some agent →
    (let n := r.word.toNat % 2 ^ 16
     r.word.extractLsb' 16 15 ≠ 0#15 ∨ (0x0024 ≤ n ∧ n < 0x8000) ∨ 0x8000 + s.bufCap.toNat ≤ n ∨
      (n < 0x8000 ∧ n % 4 ≠ 0)) →
    (r.word.getLsbD 31 = true → step s = .next { s with pending := rest, owner := some agent }) ∧
    (r.word.getLsbD 31 = false →
      step s = .next { s with pending := rest, owner := some agent, replies := 0#32 :: s.replies })

/-- 20_memory R51: a transaction of a host other than the port's owner is refused. That the first host to
use the port owns it is the model's choice (log entry 8). -/
def Obligations.SecondHostIsRefused : Prop :=
  ∀ (s : State) (agent other : Nat) (r : Request) (rest : List HostEvent),
    s.pending = .request agent r :: rest → s.owner = some other → agent ≠ other →
    step s = .refused .secondHost

/-- 70_reset R123: with no transaction to take, the block waits. That a step then leaves the state as it is
is the model's choice (log entry 5). -/
def Obligations.BlockWaitsForTransactions : Prop :=
  ∀ s : State, s.pending = [] → step s = .next s

/-- 70_reset R121: every register after a reset, and that a later write of 0 to CMD runs a command which
ends with ILLEGAL_CMD. -/
def Obligations.ResetLoadsEveryRegister : Prop :=
  ∀ (s : State) (rest : List HostEvent), s.pending = .reset :: rest →
    ∃ t, step s = .next t ∧
      t.readReg .cmd = 0#32 ∧ t.readReg .status = 0#32 ∧ t.readReg .offset = 0#32 ∧ t.readReg .length = 0#32 ∧
      t.readReg .expect = 0#32 ∧ t.readReg .crcResult = 0#32 ∧ t.readReg .fltResult = 0#32 ∧
      t.readReg .bufSize = 0#32 ∧ t.readReg .bufCap = s.readReg .bufCap ∧ t.pending = rest ∧
      exec (.busWr 0x0000#16 0#32) t = .next { t with status := ⟨false, .illegalCmd, 0#4⟩ }

/-- 70_reset R120, R122: a reset neither keeps nor clears the buffer: each of its bytes is the free value of
the new reset. The free value's form is the model's (log entry 1). -/
def Obligations.ResetDrawsTheBufferAnew : Prop :=
  ∀ (s : State) (rest : List HostEvent), s.pending = .reset :: rest →
    ∃ t, step s = .next t ∧ ∀ i, t.bufByte i = Config.bufReset (s.boot + 1) i

/-- 70_reset R121: every register after reset, for every BUF_CAP; no command has run (STATUS reads 0, CMD
reads 0), and a later write of 0 to CMD does run one, which ends with ILLEGAL_CMD. -/
def Obligations.PowerOnRegisters : Prop :=
  ∀ cap : Word,
    (∀ r : Reg, r ≠ .bufCap → (State.resetWith cap).readReg r = 0#32) ∧
    (State.resetWith cap).readReg .bufCap = cap ∧
    exec (.busWr 0x0000#16 0#32) (State.resetWith cap) =
      .next { State.resetWith cap with status := ⟨false, .illegalCmd, 0#4⟩ }

/-- The invariant holds after power-on, for every legal BUF_CAP (R5, R121). -/
def Obligations.InvariantHoldsAtReset : Prop :=
  State.reset.Inv ∧
  ∀ cap : Word, 1 ≤ cap.toNat → cap.toNat ≤ Config.bufCapMax → (State.resetWith cap).Inv

/-- The invariant holds after every step from every state where it holds: BUF_SIZE <= BUF_CAP (R26), the
reserved bits read 0 (R28), STATUS tells of the last command word (R20, R106), and the buffer memory is in
its canonical form. -/
def Obligations.EveryStepKeepsInvariant : Prop :=
  ∀ s t : State, s.Inv → step s = .next t → t.Inv

/-- 60_exceptions R116: every transaction is allowed at all times: a step goes on unless the next request is
another host's. -/
def Obligations.EveryTransactionOfTheOwnerGoesOn : Prop :=
  ∀ s : State,
    (∀ agent r rest, s.pending = .request agent r :: rest → s.owner = none ∨ s.owner = some agent) →
    WentOn (step s)

/-! BUS.RD. -/

/-- 40_host_bus R73, R74: the value of a read of each register and of each buffer byte, and that a read
leaves every register and every buffer byte as it was. -/
def Obligations.ReadValuesWithoutSideEffect : Prop :=
  ∀ s : State,
    s.busRead 0x0000#16 = s.cmd ∧
    s.busRead 0x0004#16 =
      (0#20 ++ s.status.lastOp ++ s.status.err.code ++ 0#2 ++ BitVec.ofBool s.status.matched ++ 0#1) ∧
    s.busRead 0x0008#16 = s.offset ∧
    s.busRead 0x000C#16 = s.length ∧
    s.busRead 0x0010#16 = (s.expect.extractLsb' 0 16).setWidth 32 ∧
    s.busRead 0x0014#16 = (s.crcResult.extractLsb' 0 16).setWidth 32 ∧
    s.busRead 0x0018#16 = s.fltResult ∧
    s.busRead 0x001C#16 = s.bufSize ∧
    s.busRead 0x0020#16 = s.bufCap ∧
    (∀ a : BusAddr, 0x8000 ≤ a.toNat → a.toNat < 0x8000 + s.bufCap.toNat →
      s.busRead a = (s.bufByte (a.toNat - 0x8000)).setWidth 32) ∧
    ∀ (a : BusAddr) (t : State), exec (.busRd a) s = .next t → s.sameBlock t

/-- BUS.RD of each register completes (40_host_bus R74). That the returned word is kept in `replies` is the
model's choice (log entry 6). -/
def Obligations.ReadReturnsRegister : Prop :=
  ∀ s : State,
    exec (.busRd 0x0000#16) s = .next { s with replies := s.cmd :: s.replies } ∧
    exec (.busRd 0x0004#16) s = .next { s with replies :=
      (0#20 ++ s.status.lastOp ++ s.status.err.code ++ 0#2 ++ BitVec.ofBool s.status.matched ++ 0#1) ::
        s.replies } ∧
    exec (.busRd 0x0008#16) s = .next { s with replies := s.offset :: s.replies } ∧
    exec (.busRd 0x000C#16) s = .next { s with replies := s.length :: s.replies } ∧
    exec (.busRd 0x0010#16) s =
      .next { s with replies := (s.expect.extractLsb' 0 16).setWidth 32 :: s.replies } ∧
    exec (.busRd 0x0014#16) s =
      .next { s with replies := (s.crcResult.extractLsb' 0 16).setWidth 32 :: s.replies } ∧
    exec (.busRd 0x0018#16) s = .next { s with replies := s.fltResult :: s.replies } ∧
    exec (.busRd 0x001C#16) s = .next { s with replies := s.bufSize :: s.replies } ∧
    exec (.busRd 0x0020#16) s = .next { s with replies := s.bufCap :: s.replies }

/-- BUS.RD of a buffer byte completes, whether or not the index is below BUF_SIZE (40_host_bus R73). That the
returned word is kept in `replies` is the model's choice (log entry 6). -/
def Obligations.ReadReturnsBufferByte : Prop :=
  ∀ (s : State) (a : BusAddr), 0x8000 ≤ a.toNat → a.toNat < 0x8000 + s.bufCap.toNat →
    exec (.busRd a) s =
      .next { s with replies := (s.bufByte (a.toNat - 0x8000)).setWidth 32 :: s.replies }

/-- The frame of BUS.RD: a read changes nothing of the block (20_memory R44). -/
def Obligations.ReadChangesNothing : Prop :=
  ∀ (s t : State) (a : BusAddr), exec (.busRd a) s = .next t →
    t.cmd = s.cmd ∧ t.status = s.status ∧ t.offset = s.offset ∧ t.length = s.length ∧
    t.expect = s.expect ∧ t.crcResult = s.crcResult ∧ t.fltResult = s.fltResult ∧
    t.bufSize = s.bufSize ∧ t.bufCap = s.bufCap ∧ (∀ i, t.bufByte i = s.bufByte i) ∧
    t.boot = s.boot ∧ t.pending = s.pending ∧ t.owner = s.owner

/-! BUS.WR. -/

/-- 40_host_bus R71: a write to each REG address. -/
def Obligations.WriteStoresRegister : Prop :=
  ∀ (s : State) (d : Word),
    exec (.busWr 0x0004#16 d) s = .next s ∧
    exec (.busWr 0x0008#16 d) s = .next { s with offset := d } ∧
    exec (.busWr 0x000C#16 d) s = .next { s with length := d } ∧
    exec (.busWr 0x0010#16 d) s = .next { s with expect := (d.extractLsb' 0 16).setWidth 32 } ∧
    exec (.busWr 0x0014#16 d) s = .next s ∧
    exec (.busWr 0x0018#16 d) s = .next s ∧
    exec (.busWr 0x001C#16 d) s =
      .next { s with bufSize := BitVec.ofNat 32 (min d.toNat s.bufCap.toNat) } ∧
    exec (.busWr 0x0020#16 d) s = .next s

/-- 40_host_bus R72: a write to a buffer address stores DATA[7:0] there and changes nothing else, whether or
not the index is below BUF_SIZE. -/
def Obligations.WriteStoresBufferByte : Prop :=
  ∀ (s : State) (a : BusAddr) (d : Word), 0x8000 ≤ a.toNat → a.toNat < 0x8000 + s.bufCap.toNat →
    ∃ t, exec (.busWr a d) s = .next t ∧
      t.bufByte (a.toNat - 0x8000) = d.extractLsb' 0 8 ∧
      (∀ j, j ≠ a.toNat - 0x8000 → t.bufByte j = s.bufByte j) ∧
      t = { s with buf := t.buf }

/-- 20_memory R48: a read of a buffer byte returns the byte that the last write to it stored. -/
def Obligations.ReadAfterWriteReturnsTheByte : Prop :=
  ∀ (s t : State) (a : BusAddr) (d : Word), 0x8000 ≤ a.toNat → a.toNat < 0x8000 + s.bufCap.toNat →
    exec (.busWr a d) s = .next t →
    exec (.busRd a) t = .next { t with replies := (d.extractLsb' 0 8).setWidth 32 :: t.replies }

/-- 40_host_bus R70: a write to CMD stores the word and its OP, then runs what the word decodes to; it leaves
BUSY at 0; and no other transaction touches anything beyond its own location. -/
def Obligations.WriteToCmdStoresThenRuns : Prop :=
  ∀ (s : State) (d : Word),
    let u : State := { s with cmd := d, status := { s.status with lastOp := d.extractLsb' 0 4 } }
    (decodeCmd d = .crcCalc → exec (.busWr 0x0000#16 d) s = .next u.crcCalc) ∧
    (decodeCmd d = .crcVerify → exec (.busWr 0x0000#16 d) s = .next u.crcVerify) ∧
    (∀ w, decodeCmd d = .fltDec w → exec (.busWr 0x0000#16 d) s = .next (u.fltDec w)) ∧
    (decodeCmd d = .illegal → exec (.busWr 0x0000#16 d) s = .next (u.raise .illegalCmd)) ∧
    (∀ t, exec (.busWr 0x0000#16 d) s = .next t → (t.busRead 0x0004#16).getLsbD 0 = false) ∧
    (∀ a t, exec (.busRd a) s = .next t → s.sameBlock t) ∧
    ∀ a t, a ≠ 0x0000#16 → exec (.busWr a d) s = .next t →
      (∀ r : Reg, r.addr ≠ a → t.readReg r = s.readReg r) ∧
      ∀ j, a.toNat ≠ 0x8000 + j → t.bufByte j = s.bufByte j

/-- 30_encoding R64, 40_host_bus R70: a command instruction is the write of its word to CMD, whatever the two
are called (the naming is log entry 9). -/
def Obligations.CommandIsTheWriteOfItsWord : Prop :=
  ∀ s : State,
    exec .crcCalc s = exec (.busWr 0x0000#16 0x00000001#32) s ∧
    exec .crcVerify s = exec (.busWr 0x0000#16 0x00000002#32) s ∧
    ∀ w, exec (.fltDec w) s = exec (.busWr 0x0000#16 (0x00000003#32 ||| w.setWidth 32 <<< 4)) s

/-- 60_exceptions R107: an illegal command word, said by its fields, is stored and reported, and nothing
else happens. -/
def Obligations.IllegalCommandWordIsReported : Prop :=
  ∀ (s : State) (d : Word),
    (d.extractLsb' 8 24 ≠ 0#24 ∨
      (d.extractLsb' 0 4 ≠ 1#4 ∧ d.extractLsb' 0 4 ≠ 2#4 ∧ d.extractLsb' 0 4 ≠ 3#4) ∨
      ((d.extractLsb' 0 4 = 1#4 ∨ d.extractLsb' 0 4 = 2#4) ∧ d.extractLsb' 4 4 ≠ 0#4)) →
    exec (.busWr 0x0000#16 d) s =
      .next { s with cmd := d, status := ⟨false, .illegalCmd, d.extractLsb' 0 4⟩ }

/-- 10_state R26: BUF_SIZE takes min(v, BUF_CAP), reads as stored, resets to 0, nothing but a host write to
it changes it, every window is checked against it, and BUF_SIZE <= BUF_CAP holds after every step if it
held before. -/
def Obligations.BufferSizeIsClamped : Prop :=
  (∀ (s : State) (d : Word), ∃ t, exec (.busWr 0x001C#16 d) s = .next t ∧
    t.bufSize.toNat = min d.toNat s.bufCap.toNat ∧ t.busRead 0x001C#16 = t.bufSize) ∧
  (∀ (s t : State) (i : Instr), exec i s = .next t → (∀ d, i ≠ .busWr 0x001C#16 d) →
    t.bufSize = s.bufSize) ∧
  (∀ cap : Word, (State.resetWith cap).bufSize = 0#32) ∧
  (∀ (s : State) (off len : Nat), s.windowOk off len = true ↔ off + len ≤ s.bufSize.toNat) ∧
  ∀ s t : State, s.bufSize.toNat ≤ s.bufCap.toNat → step s = .next t → t.bufSize.toNat ≤ t.bufCap.toNat

/-- 10_state R27: BUF_CAP reads the parameter, and nothing changes it, a host write to it among the rest. -/
def Obligations.BufferCapacityIsConstant : Prop :=
  (∀ cap : Word, (State.resetWith cap).bufCap = cap) ∧
  (∀ s : State, s.busRead 0x0020#16 = s.bufCap) ∧
  (∀ (s : State) (d : Word), exec (.busWr 0x0020#16 d) s = .next s) ∧
  ∀ s t : State, step s = .next t → t.bufCap = s.bufCap

/-- 20_memory R43: only a host buffer write changes the buffer memory, and it changes the byte it addresses
to DATA[7:0]. -/
def Obligations.OnlyHostBufferWritesChangeTheBuffer : Prop :=
  ∀ (s t : State) (i : Instr), exec i s = .next t → ∀ j, t.bufByte j ≠ s.bufByte j →
    ∃ a d, i = .busWr a d ∧ s.storedIndex a = some j ∧ a.toNat = 0x8000 + j ∧
      t.bufByte j = d.extractLsb' 0 8

/-- The frame of BUS.WR: each register changes only where its own address is written or, by a write to CMD,
a command writes it; every byte of the buffer but the one stored to reads as before (40_host_bus R70, R71,
R72, R76). -/
def Obligations.WriteFrame : Prop :=
  ∀ (s t : State) (a : BusAddr) (d : Word), exec (.busWr a d) s = .next t →
    (a ≠ 0x0000#16 → t.cmd = s.cmd ∧ t.status = s.status) ∧
    (a ≠ 0x0000#16 ∨ (decodeCmd d ≠ .crcCalc ∧ decodeCmd d ≠ .crcVerify) → t.crcResult = s.crcResult) ∧
    (a ≠ 0x0000#16 ∨ (∀ w, decodeCmd d ≠ .fltDec w) → t.fltResult = s.fltResult) ∧
    (a ≠ 0x0008#16 → t.offset = s.offset) ∧
    (a ≠ 0x000C#16 → t.length = s.length) ∧
    (a ≠ 0x0010#16 → t.expect = s.expect) ∧
    (a ≠ 0x001C#16 → t.bufSize = s.bufSize) ∧
    (∀ j, s.storedIndex a ≠ some j → t.bufByte j = s.bufByte j) ∧
    t.bufCap = s.bufCap ∧ t.boot = s.boot ∧ t.pending = s.pending ∧ t.owner = s.owner ∧
    t.replies = s.replies

/-- 20_memory R44: every write can be repeated: the second one changes nothing. -/
def Obligations.WritesCanBeRepeated : Prop :=
  ∀ (s t : State) (a : BusAddr) (d : Word), exec (.busWr a d) s = .next t → exec (.busWr a d) t = .next t

/-! The CRC generator. -/

/-- 41_crc16 R81: each bit of a bit step. The bit above it comes down, 0 into bit 15, and the tested bit
0 is XORed in at bits 0, 13 and 15 (0xA001). -/
def Obligations.BitStepBitByBit : Prop :=
  ∀ (c : Crc) (i : Nat), i < 16 →
    (crcBit c).getLsbD i =
      Bool.xor (decide (i < 15) && c.getLsbD (i + 1)) (c.getLsbD 0 && decide (i = 0 ∨ i = 13 ∨ i = 15))

/-- 41_crc16 R82: a byte step changes only the low byte of the register, by the unsigned byte, and then
takes eight bit steps. -/
def Obligations.ByteStepKeepsTheHighByte : Prop :=
  ∀ (c : Crc) (b : Byte),
    crcByte c b = crcBit (crcBit (crcBit (crcBit (crcBit (crcBit (crcBit (crcBit
      (c.extractLsb' 8 8 ++ (c.extractLsb' 0 8 ^^^ b)))))))))

/-- 41_crc16 R83: the message CRC folds the byte step from 0xFFFF, first byte to last, and the order
matters. -/
def Obligations.MessageCrcFoldsBytes : Prop :=
  crc16 [] = 0xFFFF#16 ∧ (∀ (bs : List Byte) (b : Byte), crc16 (bs ++ [b]) = crcByte (crc16 bs) b) ∧
    crc16 [0x01#8, 0x02#8] ≠ crc16 [0x02#8, 0x01#8]

/-- 41_crc16 R85: the check value over "123456789". -/
def Obligations.PublishedCheckValue : Prop :=
  crc16 [0x31#8, 0x32#8, 0x33#8, 0x34#8, 0x35#8, 0x36#8, 0x37#8, 0x38#8, 0x39#8] = 0x4B37#16

/-- 41_crc16 R91: a message followed by its own two result bytes, low byte first, has CRC 0. -/
def Obligations.ResidueIsZero : Prop :=
  ∀ bs : List Byte, crc16 (bs ++ resultBytes (crc16 bs)) = 0#16

/-- 20_memory R46: `window_ok` is the comparison on 33-bit sums, which never wrap. -/
def Obligations.WindowCheckNeverWraps : Prop :=
  ∀ (s : State) (off len : Word),
    s.windowOk off.toNat len.toNat =
      decide ((off.setWidth 33 + len.setWidth 33).toNat ≤ (s.bufSize.setWidth 33).toNat)

/-- 20_memory R47, 00_scope R9: MemRead(off, n) is the `n` bytes from `off` up, in increasing index order. -/
def Obligations.MemReadListsBytesInOrder : Prop :=
  ∀ (s : State) (off n : Nat),
    (s.memRead off n).length = n ∧ ∀ k, k < n → (s.memRead off n)[k]? = some (s.bufByte (off + k))

/-- 41_crc16 R86: CRC.CALC, with a valid window and with an invalid one. -/
def Obligations.CrcCalcResult : Prop :=
  encode .crcCalc = ⟨0x80000000#32, 0x00000001#32⟩ ∧
  ∀ s : State,
    (s.offset.toNat + s.length.toNat ≤ s.bufSize.toNat →
      exec .crcCalc s = .next { s with
        cmd := 0x00000001#32
        crcResult := (crc16 (s.memRead s.offset.toNat s.length.toNat)).setWidth 32
        status := ⟨false, .none, 0x1#4⟩ }) ∧
    (s.bufSize.toNat < s.offset.toNat + s.length.toNat →
      exec .crcCalc s = .next { s with cmd := 0x00000001#32, status := ⟨false, .outOfRange, 0x1#4⟩ })

/-- 41_crc16 R87: CRC.VERIFY, with a valid window and with an invalid one. -/
def Obligations.CrcVerifyResult : Prop :=
  encode .crcVerify = ⟨0x80000000#32, 0x00000002#32⟩ ∧
  ∀ s : State,
    (s.offset.toNat + s.length.toNat ≤ s.bufSize.toNat →
      exec .crcVerify s = .next { s with
        cmd := 0x00000002#32
        crcResult := (crc16 (s.memRead s.offset.toNat s.length.toNat)).setWidth 32
        status :=
          ⟨decide (crc16 (s.memRead s.offset.toNat s.length.toNat) = s.expect.extractLsb' 0 16),
            .none, 0x2#4⟩ }) ∧
    (s.bufSize.toNat < s.offset.toNat + s.length.toNat →
      exec .crcVerify s = .next { s with cmd := 0x00000002#32, status := ⟨false, .outOfRange, 0x2#4⟩ })

/-- 60_exceptions R110: a mismatch ends with ERR = NONE and MATCH = 0. -/
def Obligations.MismatchIsNoError : Prop :=
  ∀ s : State, s.offset.toNat + s.length.toNat ≤ s.bufSize.toNat →
    crc16 (s.memRead s.offset.toNat s.length.toNat) ≠ s.expect.extractLsb' 0 16 →
    ∃ t, exec .crcVerify s = .next t ∧ t.status.err = .none ∧ t.status.matched = false

/-- 41_crc16 R88: CRC.CALC, then EXPECT <- CRC_RESULT, then CRC.VERIFY gives MATCH = 1 and ERR = NONE, for
every valid window. -/
def Obligations.VerifyAcceptsWhatCalcComputed : Prop :=
  ∀ s : State, s.offset.toNat + s.length.toNat ≤ s.bufSize.toNat →
    ∃ t u v, exec .crcCalc s = .next t ∧ exec (.busWr 0x0010#16 t.crcResult) t = .next u ∧
      exec .crcVerify u = .next v ∧ v.status.matched = true ∧ v.status.err = .none

/-- 41_crc16 R89: CRC.CALC over the same window bytes gives the same result, whatever the other registers
hold and wherever the window stands. -/
def Obligations.CrcDependsOnWindowBytesAlone : Prop :=
  ∀ s s' t t' : State,
    s.offset.toNat + s.length.toNat ≤ s.bufSize.toNat →
    s'.offset.toNat + s'.length.toNat ≤ s'.bufSize.toNat →
    s.memRead s.offset.toNat s.length.toNat = s'.memRead s'.offset.toNat s'.length.toNat →
    exec .crcCalc s = .next t → exec .crcCalc s' = .next t' →
    t.crcResult = t'.crcResult ∧ t.status = t'.status

/-- 41_crc16 R90: flipping any single bit inside the window changes the result, for every window length. -/
def Obligations.SingleBitFlipChangesTheResult : Prop :=
  ∀ (s t t' : State) (j k : Nat),
    s.offset.toNat + s.length.toNat ≤ s.bufSize.toNat →
    s.offset.toNat ≤ j → j < s.offset.toNat + s.length.toNat → k < 8 →
    exec .crcCalc s = .next t →
    exec .crcCalc (s.storeByte j (s.bufByte j ^^^ BitVec.twoPow 8 k)) = .next t' →
    t.crcResult ≠ t'.crcResult

/-- The frame of CRC.CALC and CRC.VERIFY: they write CMD, STATUS and CRC_RESULT only (R86, R87, R70). -/
def Obligations.CrcCommandsFrame : Prop :=
  ∀ (s t : State) (i : Instr), i = .crcCalc ∨ i = .crcVerify → exec i s = .next t →
    t.offset = s.offset ∧ t.length = s.length ∧ t.expect = s.expect ∧ t.fltResult = s.fltResult ∧
    t.bufSize = s.bufSize ∧ t.bufCap = s.bufCap ∧ (∀ j, t.bufByte j = s.bufByte j) ∧ t.boot = s.boot ∧
    t.pending = s.pending ∧ t.owner = s.owner ∧ t.replies = s.replies

/-! The float codec. -/

/-- 42_float_codec R99, R96: FLT.DEC at each width, with a valid window and with an invalid one. -/
def Obligations.FltDecResult : Prop :=
  ∀ (s : State) (w : BitVec 4),
    encode (.fltDec w) = ⟨0x80000000#32, BitVec.ofNat 32 (3 + 16 * w.toNat)⟩ ∧
    (w ≠ 2#4 → w ≠ 4#4 →
      exec (.fltDec w) s = .next { s with
        cmd := BitVec.ofNat 32 (3 + 16 * w.toNat), status := ⟨false, .invalidWidth, 0x3#4⟩ }) ∧
    (w = 2#4 → s.offset.toNat + 2 ≤ s.bufSize.toNat →
      exec (.fltDec w) s = .next { s with
        cmd := 0x00000023#32
        fltResult := (s.bufByte s.offset.toNat ++ s.bufByte (s.offset.toNat + 1) ++ 0#8 ++ 0#8)
        status := ⟨false, .none, 0x3#4⟩ }) ∧
    (w = 4#4 → s.offset.toNat + 4 ≤ s.bufSize.toNat →
      exec (.fltDec w) s = .next { s with
        cmd := 0x00000043#32
        fltResult := (s.bufByte s.offset.toNat ++ s.bufByte (s.offset.toNat + 1) ++
          s.bufByte (s.offset.toNat + 2) ++ s.bufByte (s.offset.toNat + 3))
        status := ⟨false, .none, 0x3#4⟩ }) ∧
    (w = 2#4 ∨ w = 4#4 → s.bufSize.toNat < s.offset.toNat + w.toNat →
      exec (.fltDec w) s = .next { s with
        cmd := BitVec.ofNat 32 (3 + 16 * w.toNat), status := ⟨false, .outOfRange, 0x3#4⟩ })

/-- 42_float_codec R95: byte k of the result, from the most significant, is the window's byte k, and zero
past the width. -/
def Obligations.FloatBytesAreBigEndian : Prop :=
  ∀ (s t : State) (w : BitVec 4), w = 2#4 ∨ w = 4#4 → s.offset.toNat + w.toNat ≤ s.bufSize.toNat →
    exec (.fltDec w) s = .next t →
    ∀ k, k < 4 → t.fltResult.extractLsb' (8 * (3 - k)) 8 =
      if k < w.toNat then s.bufByte (s.offset.toNat + k) else 0#8

/-- 42_float_codec R100: width 2 gives the same word as width 4 on the two bytes followed by 00 00. -/
def Obligations.WidthTwoIsWidthFourOfThePaddedBytes : Prop :=
  ∀ s s' t t' : State,
    s.offset.toNat + 2 ≤ s.bufSize.toNat → s'.offset.toNat + 4 ≤ s'.bufSize.toNat →
    s'.memRead s'.offset.toNat 4 =
      [s.bufByte s.offset.toNat, s.bufByte (s.offset.toNat + 1), 0#8, 0#8] →
    exec (.fltDec 2#4) s = .next t → exec (.fltDec 4#4) s' = .next t' → t.fltResult = t'.fltResult

/-- The frame of FLT.DEC: it writes CMD, STATUS and FLT_RESULT only (R99, R70). -/
def Obligations.FltDecFrame : Prop :=
  ∀ (s t : State) (w : BitVec 4), exec (.fltDec w) s = .next t →
    t.offset = s.offset ∧ t.length = s.length ∧ t.expect = s.expect ∧ t.crcResult = s.crcResult ∧
    t.bufSize = s.bufSize ∧ t.bufCap = s.bufCap ∧ (∀ j, t.bufByte j = s.bufByte j) ∧ t.boot = s.boot ∧
    t.pending = s.pending ∧ t.owner = s.owner ∧ t.replies = s.replies

/-- 42_float_codec R98: two patterns that stand for the same datum, not a NaN, are the same pattern, so the
value is given whole by the bits (the form of a datum is log entry 16). -/
def Obligations.ValueDeterminesPattern : Prop :=
  ∀ v w : Word, binary32Value v = binary32Value w → (∀ q, binary32Value v ≠ .nan q) → v = w

/-! Errors and STATUS. -/

/-- 10_state R20, 40_host_bus R74, 60_exceptions R106: the fields of the STATUS word, with the code of each
error; 0x4..0xF are never produced; every other bit, BUSY among them, reads 0. -/
def Obligations.StatusWordFields : Prop :=
  ErrCode.none.code = 0x0#4 ∧ ErrCode.illegalCmd.code = 0x1#4 ∧ ErrCode.invalidWidth.code = 0x2#4 ∧
  ErrCode.outOfRange.code = 0x3#4 ∧
  ∀ st : Status,
    st.word.getLsbD 1 = st.matched ∧
    st.word.extractLsb' 4 4 = st.err.code ∧ (st.word.extractLsb' 4 4).toNat < 4 ∧
    st.word.extractLsb' 8 4 = st.lastOp ∧
    ∀ i, i = 0 ∨ i = 2 ∨ i = 3 ∨ 12 ≤ i → st.word.getLsbD i = false

/-- 60_exceptions R112: exactly one error is reported, ILLEGAL_CMD before INVALID_WIDTH before
OUT_OF_RANGE. -/
def Obligations.ErrorPriority : Prop :=
  ∀ (s : State) (d : Word), ∃ t, exec (.busWr 0x0000#16 d) s = .next t ∧
    t.status.err =
      match decodeCmd d with
      | .illegal => .illegalCmd
      | .fltDec w =>
        if w ≠ 2#4 ∧ w ≠ 4#4 then .invalidWidth
        else if s.bufSize.toNat < s.offset.toNat + w.toNat then .outOfRange else .none
      | .crcCalc =>
        if s.bufSize.toNat < s.offset.toNat + s.length.toNat then .outOfRange else .none
      | .crcVerify =>
        if s.bufSize.toNat < s.offset.toNat + s.length.toNat then .outOfRange else .none

/-- 60_exceptions R111: a write to CMD that ends with an error writes CMD and STATUS (ERR, MATCH = 0,
LAST_OP) and nothing else. -/
def Obligations.ErrorLeavesEverythingElse : Prop :=
  ∀ (s t : State) (d : Word), exec (.busWr 0x0000#16 d) s = .next t → t.status.err ≠ .none →
    t = { s with cmd := d, status := ⟨false, t.status.err, d.extractLsb' 0 4⟩ }

/-- 10_state R20: only a write to CMD writes CMD or STATUS: after any other transaction both are as they
were, and after each command LAST_OP is its OP and MATCH is 1 only for a CRC.VERIFY without error. -/
def Obligations.OnlyCommandsWriteStatus : Prop :=
  ∀ (s t : State) (i : Instr), exec i s = .next t →
    (∀ a, i = .busRd a → t.cmd = s.cmd ∧ t.status = s.status) ∧
    (∀ a d, i = .busWr a d → a ≠ 0x0000#16 → t.cmd = s.cmd ∧ t.status = s.status) ∧
    ((∀ a, i ≠ .busRd a) → (∀ a d, i = .busWr a d → a = 0x0000#16) →
      t.status.lastOp = t.cmd.extractLsb' 0 4 ∧
      (t.status.matched = true → t.status.err = .none ∧ t.cmd = 0x00000002#32 ∧
        crc16 (s.memRead s.offset.toNat s.length.toNat) = s.expect.extractLsb' 0 16))

/-- 70_reset R125: right after a command, a result register that STATUS calls a result holds the result of
the registers and the buffer as they stand. -/
def Obligations.FreshResultsAreResults : Prop :=
  ∀ (s t : State) (d : Word), exec (.busWr 0x0000#16 d) s = .next t →
    (t.crcResultFresh →
      t.crcResult = (crc16 (t.memRead t.offset.toNat t.length.toNat)).setWidth 32) ∧
    (t.fltResultFresh →
      t.fltResult = stagedWord (t.memRead t.offset.toNat (t.cmd.extractLsb' 4 4).toNat)) ∧
    (t.matchFresh →
      (t.status.matched = true ↔
        crc16 (t.memRead t.offset.toNat t.length.toNat) = t.expect.extractLsb' 0 16))

/-! What a command can depend on. -/

/-- 20_memory R42: a command reads no byte outside its window, and none at all where the window fails its
check: two states that differ only in buffer bytes outside the window give states that differ only
there. -/
def Obligations.CommandsReadOnlyTheirWindow : Prop :=
  ∀ (s s' t t' : State) (d : Word),
    s' = { s with buf := s'.buf, boot := s'.boot } →
    (∀ n, decodeCmd d = .crcCalc ∨ decodeCmd d = .crcVerify → n = s.length.toNat →
      s.offset.toNat + n ≤ s.bufSize.toNat →
      ∀ k, k < n → s'.bufByte (s.offset.toNat + k) = s.bufByte (s.offset.toNat + k)) →
    (∀ w, decodeCmd d = .fltDec w → w = 2#4 ∨ w = 4#4 → s.offset.toNat + w.toNat ≤ s.bufSize.toNat →
      ∀ k, k < w.toNat → s'.bufByte (s.offset.toNat + k) = s.bufByte (s.offset.toNat + k)) →
    exec (.busWr 0x0000#16 d) s = .next t → exec (.busWr 0x0000#16 d) s' = .next t' →
    t' = { t with buf := s'.buf, boot := s'.boot }

/-- 70_reset R122, R124: where the host has written every byte of the window since reset, no CRC command
depends on what BUF_RESET put into the buffer. It holds for every value of the free value. -/
def Obligations.WrittenWindowIgnoresResetContents : Prop :=
  ∀ (s t t' : State) (i : Instr) (boot : Nat), i = .crcCalc ∨ i = .crcVerify →
    s.windowWritten s.offset.toNat s.length.toNat →
    exec i s = .next t → exec i { s with boot := boot } = .next t' → t' = { t with boot := boot }

/-- 10_state R32, R15: the block has no hidden state: two states whose registers and buffer bytes read alike
answer every instruction alike, and still read alike after it. -/
def Obligations.NoHiddenState : Prop :=
  ∀ (s s' t t' : State) (i : Instr), s.sameBlock s' → s.replies = s'.replies →
    exec i s = .next t → exec i s' = .next t' → t.sameBlock t' ∧ t.replies = t'.replies

/-! The host's listing. -/

/-- 30_encoding R64: what each pseudo-instruction stands for. A `load` has a byte here; one with none is
`LoadOfNoByteIsNoTransaction`. -/
def Obligations.PseudoInstructionsExpand : Prop :=
  HostLine.crcCalc.expand = some [⟨0x80000000#32, 0x00000001#32⟩] ∧
  HostLine.crcVerify.expand = some [⟨0x80000000#32, 0x00000002#32⟩] ∧
  (∀ w : BitVec 4,
    (HostLine.fltDec w).expand = some [⟨0x80000000#32, BitVec.ofNat 32 (3 + 16 * w.toNat)⟩]) ∧
  (∀ i b, i < 0x8000 →
    (HostLine.wb i b).expand = some [encode (.busWr (BitVec.ofNat 16 (0x8000 + i)) (b.setWidth 32))]) ∧
  (∀ i bytes, bytes ≠ [] → i + bytes.length ≤ 0x8000 →
    (HostLine.load i bytes).expand = some (bytes.mapIdx fun k b =>
      encode (.busWr (BitVec.ofNat 16 (0x8000 + (i + k))) (b.setWidth 32)))) ∧
  (∀ off len, (HostLine.crc off len).expand =
    some [encode (.busWr 0x0008#16 off), encode (.busWr 0x000C#16 len), encode .crcCalc]) ∧
  (∀ off len e0 e1, (HostLine.verify off len e0 e1).expand =
    some [encode (.busWr 0x0008#16 off), encode (.busWr 0x000C#16 len),
      encode (.busWr 0x0010#16 (BitVec.ofNat 32 (e1.toNat * 256 + e0.toNat))), encode .crcVerify]) ∧
  (∀ off w, (HostLine.fdec off w).expand = some [encode (.busWr 0x0008#16 off), encode (.fltDec w)])

/-- A `load` with no byte puts no transaction on the bus, whatever its index: the model's choice (log entry
15), since 30_encoding R64 does not say whether a `load` may have none. -/
def Obligations.LoadOfNoByteIsNoTransaction : Prop :=
  ∀ i : Nat, (HostLine.load i []).expand = some []
end

