-- ==== Sys2Proof/Laws/State.lean ====
section
/-! SUPPORT. What each named update of the state does to each field. -/

namespace Sys2Proof.Machine

/-! `State.storeByte` -/

@[simp] theorem State.storeByte_cmd (i : Nat) (v : Byte) (s : State) :
    (s.storeByte i v).cmd = s.cmd := rfl

@[simp] theorem State.storeByte_status (i : Nat) (v : Byte) (s : State) :
    (s.storeByte i v).status = s.status := rfl

@[simp] theorem State.storeByte_offset (i : Nat) (v : Byte) (s : State) :
    (s.storeByte i v).offset = s.offset := rfl

@[simp] theorem State.storeByte_length (i : Nat) (v : Byte) (s : State) :
    (s.storeByte i v).length = s.length := rfl

@[simp] theorem State.storeByte_expect (i : Nat) (v : Byte) (s : State) :
    (s.storeByte i v).expect = s.expect := rfl

@[simp] theorem State.storeByte_crcResult (i : Nat) (v : Byte) (s : State) :
    (s.storeByte i v).crcResult = s.crcResult := rfl

@[simp] theorem State.storeByte_fltResult (i : Nat) (v : Byte) (s : State) :
    (s.storeByte i v).fltResult = s.fltResult := rfl

@[simp] theorem State.storeByte_bufSize (i : Nat) (v : Byte) (s : State) :
    (s.storeByte i v).bufSize = s.bufSize := rfl

@[simp] theorem State.storeByte_bufCap (i : Nat) (v : Byte) (s : State) :
    (s.storeByte i v).bufCap = s.bufCap := rfl

@[simp] theorem State.storeByte_buf (i : Nat) (v : Byte) (s : State) :
    (s.storeByte i v).buf = Memory.store s.buf i v := rfl

@[simp] theorem State.storeByte_boot (i : Nat) (v : Byte) (s : State) :
    (s.storeByte i v).boot = s.boot := rfl

@[simp] theorem State.storeByte_pending (i : Nat) (v : Byte) (s : State) :
    (s.storeByte i v).pending = s.pending := rfl

@[simp] theorem State.storeByte_owner (i : Nat) (v : Byte) (s : State) :
    (s.storeByte i v).owner = s.owner := rfl

@[simp] theorem State.storeByte_replies (i : Nat) (v : Byte) (s : State) :
    (s.storeByte i v).replies = s.replies := rfl

/-! `State.reply` -/

@[simp] theorem State.reply_cmd (w : Word) (s : State) :
    (s.reply w).cmd = s.cmd := rfl

@[simp] theorem State.reply_status (w : Word) (s : State) :
    (s.reply w).status = s.status := rfl

@[simp] theorem State.reply_offset (w : Word) (s : State) :
    (s.reply w).offset = s.offset := rfl

@[simp] theorem State.reply_length (w : Word) (s : State) :
    (s.reply w).length = s.length := rfl

@[simp] theorem State.reply_expect (w : Word) (s : State) :
    (s.reply w).expect = s.expect := rfl

@[simp] theorem State.reply_crcResult (w : Word) (s : State) :
    (s.reply w).crcResult = s.crcResult := rfl

@[simp] theorem State.reply_fltResult (w : Word) (s : State) :
    (s.reply w).fltResult = s.fltResult := rfl

@[simp] theorem State.reply_bufSize (w : Word) (s : State) :
    (s.reply w).bufSize = s.bufSize := rfl

@[simp] theorem State.reply_bufCap (w : Word) (s : State) :
    (s.reply w).bufCap = s.bufCap := rfl

@[simp] theorem State.reply_buf (w : Word) (s : State) :
    (s.reply w).buf = s.buf := rfl

@[simp] theorem State.reply_boot (w : Word) (s : State) :
    (s.reply w).boot = s.boot := rfl

@[simp] theorem State.reply_pending (w : Word) (s : State) :
    (s.reply w).pending = s.pending := rfl

@[simp] theorem State.reply_owner (w : Word) (s : State) :
    (s.reply w).owner = s.owner := rfl

@[simp] theorem State.reply_replies (w : Word) (s : State) :
    (s.reply w).replies = w :: s.replies := rfl

/-! `State.latchCmd` -/

@[simp] theorem State.latchCmd_cmd (d : Word) (s : State) :
    (s.latchCmd d).cmd = d := rfl

@[simp] theorem State.latchCmd_status (d : Word) (s : State) :
    (s.latchCmd d).status = { s.status with lastOp := cmdOp d } := rfl

@[simp] theorem State.latchCmd_offset (d : Word) (s : State) :
    (s.latchCmd d).offset = s.offset := rfl

@[simp] theorem State.latchCmd_length (d : Word) (s : State) :
    (s.latchCmd d).length = s.length := rfl

@[simp] theorem State.latchCmd_expect (d : Word) (s : State) :
    (s.latchCmd d).expect = s.expect := rfl

@[simp] theorem State.latchCmd_crcResult (d : Word) (s : State) :
    (s.latchCmd d).crcResult = s.crcResult := rfl

@[simp] theorem State.latchCmd_fltResult (d : Word) (s : State) :
    (s.latchCmd d).fltResult = s.fltResult := rfl

@[simp] theorem State.latchCmd_bufSize (d : Word) (s : State) :
    (s.latchCmd d).bufSize = s.bufSize := rfl

@[simp] theorem State.latchCmd_bufCap (d : Word) (s : State) :
    (s.latchCmd d).bufCap = s.bufCap := rfl

@[simp] theorem State.latchCmd_buf (d : Word) (s : State) :
    (s.latchCmd d).buf = s.buf := rfl

@[simp] theorem State.latchCmd_boot (d : Word) (s : State) :
    (s.latchCmd d).boot = s.boot := rfl

@[simp] theorem State.latchCmd_pending (d : Word) (s : State) :
    (s.latchCmd d).pending = s.pending := rfl

@[simp] theorem State.latchCmd_owner (d : Word) (s : State) :
    (s.latchCmd d).owner = s.owner := rfl

@[simp] theorem State.latchCmd_replies (d : Word) (s : State) :
    (s.latchCmd d).replies = s.replies := rfl

/-! `State.raise` -/

@[simp] theorem State.raise_cmd (e : ErrCode) (s : State) :
    (s.raise e).cmd = s.cmd := rfl

@[simp] theorem State.raise_status (e : ErrCode) (s : State) :
    (s.raise e).status = s.status.fail e := rfl

@[simp] theorem State.raise_offset (e : ErrCode) (s : State) :
    (s.raise e).offset = s.offset := rfl

@[simp] theorem State.raise_length (e : ErrCode) (s : State) :
    (s.raise e).length = s.length := rfl

@[simp] theorem State.raise_expect (e : ErrCode) (s : State) :
    (s.raise e).expect = s.expect := rfl

@[simp] theorem State.raise_crcResult (e : ErrCode) (s : State) :
    (s.raise e).crcResult = s.crcResult := rfl

@[simp] theorem State.raise_fltResult (e : ErrCode) (s : State) :
    (s.raise e).fltResult = s.fltResult := rfl

@[simp] theorem State.raise_bufSize (e : ErrCode) (s : State) :
    (s.raise e).bufSize = s.bufSize := rfl

@[simp] theorem State.raise_bufCap (e : ErrCode) (s : State) :
    (s.raise e).bufCap = s.bufCap := rfl

@[simp] theorem State.raise_buf (e : ErrCode) (s : State) :
    (s.raise e).buf = s.buf := rfl

@[simp] theorem State.raise_boot (e : ErrCode) (s : State) :
    (s.raise e).boot = s.boot := rfl

@[simp] theorem State.raise_pending (e : ErrCode) (s : State) :
    (s.raise e).pending = s.pending := rfl

@[simp] theorem State.raise_owner (e : ErrCode) (s : State) :
    (s.raise e).owner = s.owner := rfl

@[simp] theorem State.raise_replies (e : ErrCode) (s : State) :
    (s.raise e).replies = s.replies := rfl

/-! `State.finishCrc` -/

@[simp] theorem State.finishCrc_cmd (c : Crc) (m : Bool) (s : State) :
    (s.finishCrc c m).cmd = s.cmd := rfl

@[simp] theorem State.finishCrc_status (c : Crc) (m : Bool) (s : State) :
    (s.finishCrc c m).status = s.status.succeed m := rfl

@[simp] theorem State.finishCrc_offset (c : Crc) (m : Bool) (s : State) :
    (s.finishCrc c m).offset = s.offset := rfl

@[simp] theorem State.finishCrc_length (c : Crc) (m : Bool) (s : State) :
    (s.finishCrc c m).length = s.length := rfl

@[simp] theorem State.finishCrc_expect (c : Crc) (m : Bool) (s : State) :
    (s.finishCrc c m).expect = s.expect := rfl

@[simp] theorem State.finishCrc_crcResult (c : Crc) (m : Bool) (s : State) :
    (s.finishCrc c m).crcResult = c.setWidth 32 := rfl

@[simp] theorem State.finishCrc_fltResult (c : Crc) (m : Bool) (s : State) :
    (s.finishCrc c m).fltResult = s.fltResult := rfl

@[simp] theorem State.finishCrc_bufSize (c : Crc) (m : Bool) (s : State) :
    (s.finishCrc c m).bufSize = s.bufSize := rfl

@[simp] theorem State.finishCrc_bufCap (c : Crc) (m : Bool) (s : State) :
    (s.finishCrc c m).bufCap = s.bufCap := rfl

@[simp] theorem State.finishCrc_buf (c : Crc) (m : Bool) (s : State) :
    (s.finishCrc c m).buf = s.buf := rfl

@[simp] theorem State.finishCrc_boot (c : Crc) (m : Bool) (s : State) :
    (s.finishCrc c m).boot = s.boot := rfl

@[simp] theorem State.finishCrc_pending (c : Crc) (m : Bool) (s : State) :
    (s.finishCrc c m).pending = s.pending := rfl

@[simp] theorem State.finishCrc_owner (c : Crc) (m : Bool) (s : State) :
    (s.finishCrc c m).owner = s.owner := rfl

@[simp] theorem State.finishCrc_replies (c : Crc) (m : Bool) (s : State) :
    (s.finishCrc c m).replies = s.replies := rfl

/-! `State.finishFlt` -/

@[simp] theorem State.finishFlt_cmd (w : Word) (s : State) :
    (s.finishFlt w).cmd = s.cmd := rfl

@[simp] theorem State.finishFlt_status (w : Word) (s : State) :
    (s.finishFlt w).status = s.status.succeed false := rfl

@[simp] theorem State.finishFlt_offset (w : Word) (s : State) :
    (s.finishFlt w).offset = s.offset := rfl

@[simp] theorem State.finishFlt_length (w : Word) (s : State) :
    (s.finishFlt w).length = s.length := rfl

@[simp] theorem State.finishFlt_expect (w : Word) (s : State) :
    (s.finishFlt w).expect = s.expect := rfl

@[simp] theorem State.finishFlt_crcResult (w : Word) (s : State) :
    (s.finishFlt w).crcResult = s.crcResult := rfl

@[simp] theorem State.finishFlt_fltResult (w : Word) (s : State) :
    (s.finishFlt w).fltResult = w := rfl

@[simp] theorem State.finishFlt_bufSize (w : Word) (s : State) :
    (s.finishFlt w).bufSize = s.bufSize := rfl

@[simp] theorem State.finishFlt_bufCap (w : Word) (s : State) :
    (s.finishFlt w).bufCap = s.bufCap := rfl

@[simp] theorem State.finishFlt_buf (w : Word) (s : State) :
    (s.finishFlt w).buf = s.buf := rfl

@[simp] theorem State.finishFlt_boot (w : Word) (s : State) :
    (s.finishFlt w).boot = s.boot := rfl

@[simp] theorem State.finishFlt_pending (w : Word) (s : State) :
    (s.finishFlt w).pending = s.pending := rfl

@[simp] theorem State.finishFlt_owner (w : Word) (s : State) :
    (s.finishFlt w).owner = s.owner := rfl

@[simp] theorem State.finishFlt_replies (w : Word) (s : State) :
    (s.finishFlt w).replies = s.replies := rfl

/-! `State.accept` -/

@[simp] theorem State.accept_cmd (a : Nat) (es : List HostEvent) (s : State) :
    (s.accept a es).cmd = s.cmd := rfl

@[simp] theorem State.accept_status (a : Nat) (es : List HostEvent) (s : State) :
    (s.accept a es).status = s.status := rfl

@[simp] theorem State.accept_offset (a : Nat) (es : List HostEvent) (s : State) :
    (s.accept a es).offset = s.offset := rfl

@[simp] theorem State.accept_length (a : Nat) (es : List HostEvent) (s : State) :
    (s.accept a es).length = s.length := rfl

@[simp] theorem State.accept_expect (a : Nat) (es : List HostEvent) (s : State) :
    (s.accept a es).expect = s.expect := rfl

@[simp] theorem State.accept_crcResult (a : Nat) (es : List HostEvent) (s : State) :
    (s.accept a es).crcResult = s.crcResult := rfl

@[simp] theorem State.accept_fltResult (a : Nat) (es : List HostEvent) (s : State) :
    (s.accept a es).fltResult = s.fltResult := rfl

@[simp] theorem State.accept_bufSize (a : Nat) (es : List HostEvent) (s : State) :
    (s.accept a es).bufSize = s.bufSize := rfl

@[simp] theorem State.accept_bufCap (a : Nat) (es : List HostEvent) (s : State) :
    (s.accept a es).bufCap = s.bufCap := rfl

@[simp] theorem State.accept_buf (a : Nat) (es : List HostEvent) (s : State) :
    (s.accept a es).buf = s.buf := rfl

@[simp] theorem State.accept_boot (a : Nat) (es : List HostEvent) (s : State) :
    (s.accept a es).boot = s.boot := rfl

@[simp] theorem State.accept_pending (a : Nat) (es : List HostEvent) (s : State) :
    (s.accept a es).pending = es := rfl

@[simp] theorem State.accept_owner (a : Nat) (es : List HostEvent) (s : State) :
    (s.accept a es).owner = some a := rfl

@[simp] theorem State.accept_replies (a : Nat) (es : List HostEvent) (s : State) :
    (s.accept a es).replies = s.replies := rfl

/-! `State.platformReset` -/

@[simp] theorem State.platformReset_cmd (s : State) :
    (s.platformReset).cmd = 0#32 := rfl

@[simp] theorem State.platformReset_status (s : State) :
    (s.platformReset).status = ⟨false, .none, 0#4⟩ := rfl

@[simp] theorem State.platformReset_offset (s : State) :
    (s.platformReset).offset = 0#32 := rfl

@[simp] theorem State.platformReset_length (s : State) :
    (s.platformReset).length = 0#32 := rfl

@[simp] theorem State.platformReset_expect (s : State) :
    (s.platformReset).expect = 0#32 := rfl

@[simp] theorem State.platformReset_crcResult (s : State) :
    (s.platformReset).crcResult = 0#32 := rfl

@[simp] theorem State.platformReset_fltResult (s : State) :
    (s.platformReset).fltResult = 0#32 := rfl

@[simp] theorem State.platformReset_bufSize (s : State) :
    (s.platformReset).bufSize = 0#32 := rfl

@[simp] theorem State.platformReset_bufCap (s : State) :
    (s.platformReset).bufCap = s.bufCap := rfl

@[simp] theorem State.platformReset_buf (s : State) :
    (s.platformReset).buf = [] := rfl

@[simp] theorem State.platformReset_boot (s : State) :
    (s.platformReset).boot = s.boot + 1 := rfl

@[simp] theorem State.platformReset_pending (s : State) :
    (s.platformReset).pending = s.pending := rfl

@[simp] theorem State.platformReset_owner (s : State) :
    (s.platformReset).owner = s.owner := rfl

@[simp] theorem State.platformReset_replies (s : State) :
    (s.platformReset).replies = s.replies := rfl

/-! `State.place` -/

@[simp] theorem State.place_cmd (r : Request) (s : State) :
    (s.place r).cmd = s.cmd := rfl

@[simp] theorem State.place_status (r : Request) (s : State) :
    (s.place r).status = s.status := rfl

@[simp] theorem State.place_offset (r : Request) (s : State) :
    (s.place r).offset = s.offset := rfl

@[simp] theorem State.place_length (r : Request) (s : State) :
    (s.place r).length = s.length := rfl

@[simp] theorem State.place_expect (r : Request) (s : State) :
    (s.place r).expect = s.expect := rfl

@[simp] theorem State.place_crcResult (r : Request) (s : State) :
    (s.place r).crcResult = s.crcResult := rfl

@[simp] theorem State.place_fltResult (r : Request) (s : State) :
    (s.place r).fltResult = s.fltResult := rfl

@[simp] theorem State.place_bufSize (r : Request) (s : State) :
    (s.place r).bufSize = s.bufSize := rfl

@[simp] theorem State.place_bufCap (r : Request) (s : State) :
    (s.place r).bufCap = s.bufCap := rfl

@[simp] theorem State.place_buf (r : Request) (s : State) :
    (s.place r).buf = s.buf := rfl

@[simp] theorem State.place_boot (r : Request) (s : State) :
    (s.place r).boot = s.boot := rfl

@[simp] theorem State.place_pending (r : Request) (s : State) :
    (s.place r).pending = .request (s.owner.getD 0) r :: s.pending := rfl

@[simp] theorem State.place_owner (r : Request) (s : State) :
    (s.place r).owner = s.owner := rfl

@[simp] theorem State.place_replies (r : Request) (s : State) :
    (s.place r).replies = s.replies := rfl

/-! `State.enqueue` -/

@[simp] theorem State.enqueue_cmd (a : Nat) (rs : List Request) (s : State) :
    (s.enqueue a rs).cmd = s.cmd := rfl

@[simp] theorem State.enqueue_status (a : Nat) (rs : List Request) (s : State) :
    (s.enqueue a rs).status = s.status := rfl

@[simp] theorem State.enqueue_offset (a : Nat) (rs : List Request) (s : State) :
    (s.enqueue a rs).offset = s.offset := rfl

@[simp] theorem State.enqueue_length (a : Nat) (rs : List Request) (s : State) :
    (s.enqueue a rs).length = s.length := rfl

@[simp] theorem State.enqueue_expect (a : Nat) (rs : List Request) (s : State) :
    (s.enqueue a rs).expect = s.expect := rfl

@[simp] theorem State.enqueue_crcResult (a : Nat) (rs : List Request) (s : State) :
    (s.enqueue a rs).crcResult = s.crcResult := rfl

@[simp] theorem State.enqueue_fltResult (a : Nat) (rs : List Request) (s : State) :
    (s.enqueue a rs).fltResult = s.fltResult := rfl

@[simp] theorem State.enqueue_bufSize (a : Nat) (rs : List Request) (s : State) :
    (s.enqueue a rs).bufSize = s.bufSize := rfl

@[simp] theorem State.enqueue_bufCap (a : Nat) (rs : List Request) (s : State) :
    (s.enqueue a rs).bufCap = s.bufCap := rfl

@[simp] theorem State.enqueue_buf (a : Nat) (rs : List Request) (s : State) :
    (s.enqueue a rs).buf = s.buf := rfl

@[simp] theorem State.enqueue_boot (a : Nat) (rs : List Request) (s : State) :
    (s.enqueue a rs).boot = s.boot := rfl

@[simp] theorem State.enqueue_pending (a : Nat) (rs : List Request) (s : State) :
    (s.enqueue a rs).pending = s.pending ++ rs.map (HostEvent.request a) := rfl

@[simp] theorem State.enqueue_owner (a : Nat) (rs : List Request) (s : State) :
    (s.enqueue a rs).owner = s.owner := rfl

@[simp] theorem State.enqueue_replies (a : Nat) (rs : List Request) (s : State) :
    (s.enqueue a rs).replies = s.replies := rfl

/-! `Status` -/

@[simp] theorem Status.succeed_matched (m : Bool) (st : Status) : (st.succeed m).matched = m := rfl

@[simp] theorem Status.succeed_err (m : Bool) (st : Status) : (st.succeed m).err = .none := rfl

@[simp] theorem Status.succeed_lastOp (m : Bool) (st : Status) : (st.succeed m).lastOp = st.lastOp := rfl

@[simp] theorem Status.fail_matched (e : ErrCode) (st : Status) : (st.fail e).matched = false := rfl

@[simp] theorem Status.fail_err (e : ErrCode) (st : Status) : (st.fail e).err = e := rfl

@[simp] theorem Status.fail_lastOp (e : ErrCode) (st : Status) : (st.fail e).lastOp = st.lastOp := rfl

end Sys2Proof.Machine
end

