-- ==== Sys2Proof/Laws/Memory.lean ====
section
/-! SUPPORT. The buffer memory: what a store leaves readable, and that it keeps the canonical form. -/

namespace Sys2Proof.Machine

@[simp] theorem Memory.lookup_nil (i : Nat) : Memory.lookup [] i = none := rfl

theorem Memory.lookup_store_same (m : Memory) (i : Nat) (v : Byte) :
    Memory.lookup (Memory.store m i v) i = some v := by
  induction m with
  | nil => simp [Memory.store, Memory.lookup]
  | cons c m ih =>
    obtain ⟨a, b⟩ := c
    by_cases h : i < a
    · simp [Memory.store, Memory.lookup, h]
    · by_cases e : i = a
      · simp [Memory.store, Memory.lookup, e]
      · simp [Memory.store, Memory.lookup, h, e, Ne.symm e, ih]

theorem Memory.lookup_store_other (m : Memory) {i j : Nat} (v : Byte) (h : j ≠ i) :
    Memory.lookup (Memory.store m i v) j = Memory.lookup m j := by
  induction m with
  | nil => simp [Memory.store, Memory.lookup, Ne.symm h]
  | cons c m ih =>
    obtain ⟨a, b⟩ := c
    by_cases lt : i < a
    · simp [Memory.store, Memory.lookup, lt, Ne.symm h]
    · by_cases e : i = a
      · subst e
        simp [Memory.store, Memory.lookup, Ne.symm h]
      · simp only [Memory.store, lt, e, if_false, Memory.lookup, ih]

/-- The indices after a store are the stored one and those listed before. -/
theorem Memory.mem_store {m : Memory} {i : Nat} {v : Byte} {c : Host.Cell}
    (h : c ∈ Memory.store m i v) : c = (i, v) ∨ c ∈ m := by
  induction m with
  | nil => simpa [Memory.store] using h
  | cons d m ih =>
    obtain ⟨a, b⟩ := d
    simp only [Memory.store] at h
    split at h
    · simpa using h
    · split at h
      · rcases List.mem_cons.mp h with h | h
        · exact .inl h
        · exact .inr (List.mem_cons_of_mem _ h)
      · rcases List.mem_cons.mp h with h | h
        · exact .inr (by simp [h])
        · exact (ih h).imp id (List.mem_cons_of_mem _)

/-- Every memory operation keeps the canonical form: a store inside the buffer does. -/
theorem Memory.store_wf {cap : Nat} {m : Memory} {i : Nat} (v : Byte) (hi : i < cap)
    (h : Memory.wf cap m) : Memory.wf cap (Memory.store m i v) := by
  refine ⟨?_, fun c hc => ?_⟩
  · have hp := h.1
    clear h
    induction m with
    | nil => simp [Memory.store]
    | cons d m ih =>
      obtain ⟨a, b⟩ := d
      rw [List.pairwise_cons] at hp
      simp only [Memory.store]
      split
      · rename_i lt
        refine List.pairwise_cons.mpr ⟨fun c hc => ?_, List.pairwise_cons.mpr hp⟩
        rcases List.mem_cons.mp hc with rfl | hc
        · exact lt
        · exact Nat.lt_trans lt (hp.1 c hc)
      · split
        · rename_i e
          subst e
          exact List.pairwise_cons.mpr hp
        · refine List.pairwise_cons.mpr ⟨fun c hc => ?_, ih hp.2⟩
          rcases Memory.mem_store hc with rfl | hc
          · simp only; omega
          · exact hp.1 c hc
  · rcases Memory.mem_store hc with rfl | hc
    · exact hi
    · exact h.2 c hc

/-- The memory after reset is in canonical form. -/
theorem Memory.reset_wf (cap : Word) : Memory.wf cap.toNat (State.resetWith cap).buf := by
  simp [State.resetWith, Memory.wf]

/-- A byte written is the byte read. -/
theorem State.bufByte_storeByte_same (s : State) (i : Nat) (v : Byte) :
    (s.storeByte i v).bufByte i = v := by
  simp [State.bufByte, Memory.lookup_store_same]

/-- A write leaves every other byte alone. -/
theorem State.bufByte_storeByte_other (s : State) {i j : Nat} (v : Byte) (h : j ≠ i) :
    (s.storeByte i v).bufByte j = s.bufByte j := by
  simp [State.bufByte, Memory.lookup_store_other _ _ h]

/-- A byte reads the same in two states whose buffer and reset count are the same. -/
theorem State.bufByte_congr {s t : State} (hb : t.buf = s.buf) (hr : t.boot = s.boot) (i : Nat) :
    t.bufByte i = s.bufByte i := by
  simp [State.bufByte, hb, hr]

/-- A window reads the same in two states whose buffer and reset count are the same. -/
theorem State.memRead_congr {s t : State} (hb : t.buf = s.buf) (hr : t.boot = s.boot) (off n : Nat) :
    t.memRead off n = s.memRead off n := by
  simp [State.memRead, State.bufByte_congr hb hr]

@[simp] theorem State.memRead_length (s : State) (off n : Nat) : (s.memRead off n).length = n := by
  simp [State.memRead]

end Sys2Proof.Machine
end

