-- ==== Sys2Proof/Laws/Words.lean ====
section
/-! SUPPORT. The fields of the words the encoder builds, and the address classes. -/

namespace Sys2Proof

/-- Bit `i` of a request word: ADDR below 16, W at 31, 0 between. -/
theorem getLsbD_requestWord (w : Bool) (a : BusAddr) (i : Nat) :
    (requestWord w a).getLsbD i = (a.getLsbD i || (decide (i = 31) && w)) := by
  have high : (0x80000000#32).getLsbD i = decide (i = 31) := by
    rw [show 0x80000000#32 = BitVec.twoPow 32 31 from rfl, BitVec.getLsbD_twoPow]
    by_cases e : i = 31 <;> simp [e, eq_comm]
  have low : (a.setWidth 32).getLsbD i = a.getLsbD i := by
    rw [BitVec.getLsbD_setWidth]
    by_cases h : i < 32
    · simp [h]
    · simp [h, BitVec.getLsbD_of_ge a i (by omega)]
  cases w
  · simp [requestWord, low]
  · simp only [requestWord, if_true, BitVec.getLsbD_or, high, low, Bool.and_true, Bool.or_comm]

@[simp] theorem reqAddr_requestWord (w : Bool) (a : BusAddr) : reqAddr (requestWord w a) = a := by
  apply BitVec.eq_of_getLsbD_eq
  intro i hi
  have : i ≠ 31 := by omega
  simp [reqAddr, getLsbD_requestWord, hi, this]

@[simp] theorem reqZ_requestWord (w : Bool) (a : BusAddr) : reqZ (requestWord w a) = 0#15 := by
  apply BitVec.eq_of_getLsbD_eq
  intro i hi
  have : 16 + i ≠ 31 := by omega
  simp only [reqZ, BitVec.getLsbD_extractLsb', getLsbD_requestWord, this]
  simp

@[simp] theorem reqWrite_requestWord (w : Bool) (a : BusAddr) : reqWrite (requestWord w a) = w := by
  simp only [reqWrite, getLsbD_requestWord]
  simp

/-- A request word is put together from its three fields again. -/
theorem requestWord_of_fields (r : Word) (h : reqZ r = 0#15) : requestWord (reqWrite r) (reqAddr r) = r := by
  apply BitVec.eq_of_getLsbD_eq
  intro i hi
  simp only [getLsbD_requestWord, reqAddr, BitVec.getLsbD_extractLsb', reqWrite]
  by_cases lo : i < 16
  · have : i ≠ 31 := by omega
    simp [lo, this]
  · by_cases top : i = 31
    · subst top
      simp
    · have hz : (reqZ r).getLsbD (i - 16) = false := by rw [h]; simp
      rw [reqZ, BitVec.getLsbD_extractLsb', show 16 + (i - 16) = i by omega] at hz
      have lt : i - 16 < 15 := by omega
      simp only [lt, decide_true, Bool.true_and] at hz
      simp [lo, top, hz]

@[simp] theorem cmdOp_commandWord (w op : BitVec 4) : cmdOp (commandWord w op) = op := by
  revert w op; decide

@[simp] theorem cmdWidth_commandWord (w op : BitVec 4) : cmdWidth (commandWord w op) = w := by
  revert w op; decide

@[simp] theorem cmdRsvd_commandWord (w op : BitVec 4) : cmdRsvd (commandWord w op) = 0#24 := by
  revert w op; decide

/-- A word whose RSVD is 0 is put together from its other two fields again. -/
theorem commandWord_of_fields (v : Word) (h : cmdRsvd v = 0#24) : commandWord (cmdWidth v) (cmdOp v) = v := by
  apply BitVec.eq_of_getLsbD_eq
  intro i hi
  simp only [commandWord, cmdOp, cmdWidth, BitVec.getLsbD_or, BitVec.getLsbD_setWidth,
    BitVec.getLsbD_shiftLeft, BitVec.getLsbD_extractLsb', hi]
  by_cases lo : i < 4
  · simp [lo]
  · by_cases mid : i < 8
    · have e : 4 + (i - 4) = i := by omega
      have l1 : i - 4 < 32 := by omega
      have l2 : i - 4 < 4 := by omega
      simp [lo, e, l1, l2]
    · have hz : (cmdRsvd v).getLsbD (i - 8) = false := by rw [h]; simp
      rw [cmdRsvd, BitVec.getLsbD_extractLsb', show 8 + (i - 8) = i by omega] at hz
      have l1 : i - 8 < 24 := by omega
      have l2 : ¬ i - 4 < 4 := by omega
      simp only [l1, decide_true, Bool.true_and] at hz
      simp [lo, l2, hz]

@[simp] theorem decodeCmd_crcCalc : decodeCmd (commandWord 0#4 0x1#4) = .crcCalc := by decide

@[simp] theorem decodeCmd_crcVerify : decodeCmd (commandWord 0#4 0x2#4) = .crcVerify := by decide

@[simp] theorem decodeCmd_fltDec (w : BitVec 4) : decodeCmd (commandWord w 0x3#4) = .fltDec w := by
  revert w; decide

/-- What each answer of `decodeCmd` says about the word: it is the command's own word. -/
theorem decodeCmd_cases (v : Word) :
    (decodeCmd v = .crcCalc ∧ v = commandWord 0#4 0x1#4) ∨
    (decodeCmd v = .crcVerify ∧ v = commandWord 0#4 0x2#4) ∨
    (∃ w, decodeCmd v = .fltDec w ∧ v = commandWord w 0x3#4) ∨
    decodeCmd v = .illegal := by
  by_cases hr : cmdRsvd v = 0#24
  · have hv := commandWord_of_fields v hr
    by_cases h1 : cmdOp v = 0x1#4 ∧ cmdWidth v = 0#4
    · exact .inl ⟨by simp [decodeCmd, hr, h1], by rw [← hv, h1.1, h1.2]⟩
    · by_cases h2 : cmdOp v = 0x2#4 ∧ cmdWidth v = 0#4
      · exact .inr (.inl ⟨by simp [decodeCmd, hr, h2], by rw [← hv, h2.1, h2.2]⟩)
      · by_cases h3 : cmdOp v = 0x3#4
        · refine .inr (.inr (.inl ⟨cmdWidth v, by simp [decodeCmd, hr, h3], ?_⟩))
          rw [← h3, hv]
        · exact .inr (.inr (.inr (by simp only [decodeCmd, hr, h1, h2, h3, ne_eq, not_true, if_false])))
  · exact .inr (.inr (.inr (by simp only [decodeCmd, ne_eq, hr, not_false_eq_true, if_true])))

/-- The table rows' match and mask (R65) and `decode_cmd` (R57) agree on which words are legal. -/
theorem isCommandWord_iff (d : Word) : isCommandWord d = true ↔ decodeCmd d ≠ .illegal := by
  rcases decodeCmd_cases d with ⟨h, rfl⟩ | ⟨h, rfl⟩ | ⟨w, h, rfl⟩ | h
  · decide
  · decide
  · revert w; decide
  · refine ⟨fun hd => ?_, fun hn => absurd h hn⟩
    simp only [isCommandWord, Bool.or_eq_true, beq_iff_eq] at hd
    rcases hd with (rfl | rfl) | hd
    · exact absurd h (by decide)
    · exact absurd h (by decide)
    · have hr : cmdRsvd d = 0#24 := by
        apply BitVec.eq_of_getLsbD_eq
        intro i hi
        have bit := congrArg (fun v => v.getLsbD (8 + i)) hd
        have m : ∀ i, i < 24 → (0xFFFFFF0F#32).getLsbD (8 + i) = true := by decide
        have z : ∀ i, i < 24 → (0x00000003#32).getLsbD (8 + i) = false := by decide
        simp only [BitVec.getLsbD_and, m i hi, z i hi, Bool.and_true] at bit
        simp [cmdRsvd, hi, bit]
      have ho : cmdOp d = 0x3#4 := by
        apply BitVec.eq_of_getLsbD_eq
        intro i hi
        have bit := congrArg (fun v => v.getLsbD i) hd
        have m : ∀ i, i < 4 → (0xFFFFFF0F#32).getLsbD i = true := by decide
        have z : ∀ i, i < 4 → (0x00000003#32).getLsbD i = (0x3#4).getLsbD i := by decide
        simp only [BitVec.getLsbD_and, m i hi, z i hi, Bool.and_true] at bit
        simp [cmdOp, hi, bit]
      simp [decodeCmd, hr, ho] at h

end Sys2Proof

namespace Sys2Proof.Machine

/-- What each class of address says about the address (R54). -/
theorem classify_cases (cap : Nat) (a : BusAddr) :
    (classify cap a = .cmd ∧ a = Reg.cmd.addr) ∨
    (∃ r, r ≠ .cmd ∧ classify cap a = .reg r ∧ a = r.addr) ∨
    (∃ i, i < cap ∧ classify cap a = .buf i ∧ a.toNat = 0x8000 + i) ∨
    classify cap a = .rsvd := by
  simp only [classify]
  split
  · split
    · exact .inr (.inr (.inl ⟨_, ‹_›, rfl, by omega⟩))
    · exact .inr (.inr (.inr rfl))
  · simp only [classifyLow]
    repeat' split
    · exact .inl ⟨rfl, ‹_›⟩
    all_goals first
      | exact .inr (.inl ⟨_, by decide, rfl, ‹_›⟩)
      | exact .inr (.inr (.inr rfl))

/-- A register's own address is in the class of that register, whatever BUF_CAP is. -/
theorem classify_reg (cap : Nat) {r : Reg} (h : r ≠ .cmd) : classify cap r.addr = .reg r := by
  cases r <;> first | exact absurd rfl h | rfl

@[simp] theorem classify_cmd (cap : Nat) : classify cap Reg.cmd.addr = .cmd := rfl

@[simp] theorem classify_zero (cap : Nat) : classify cap 0#16 = .cmd := rfl

/-- The address of a buffer byte is in the class of that byte (R54). -/
theorem classify_buf {cap i : Nat} {a : BusAddr} (h : a.toNat = 0x8000 + i) (hi : i < cap) :
    classify cap a = .buf i := by
  have e : a.toNat - 0x8000 = i := by omega
  have l : 0x8000 ≤ a.toNat := by omega
  simp only [classify, l, e, hi, if_true]

end Sys2Proof.Machine
end

