-- ==== Sys2Proof/Laws/Ops.lean ====
section
/-! SUPPORT. Everything each shared operation can do, said once. -/

namespace Sys2Proof.Machine

/-! Windows and widths. -/

theorem State.windowOk_iff (s : State) (off len : Nat) :
    s.windowOk off len = true ↔ off + len ≤ s.bufSize.toNat := decide_eq_true_iff

theorem State.windowOk_eq_false_iff (s : State) (off len : Nat) :
    s.windowOk off len = false ↔ s.bufSize.toNat < off + len :=
  decide_eq_false_iff_not.trans Nat.not_le

@[simp] theorem State.latchCmd_crcWindowOk (d : Word) (s : State) :
    (s.latchCmd d).crcWindowOk = s.crcWindowOk := rfl

@[simp] theorem State.latchCmd_crcWindow (d : Word) (s : State) : (s.latchCmd d).crcWindow = s.crcWindow := rfl

@[simp] theorem State.latchCmd_fltWindowOk (d : Word) (w : BitVec 4) (s : State) :
    (s.latchCmd d).fltWindowOk w = s.fltWindowOk w := rfl

@[simp] theorem State.latchCmd_fltWindow (d : Word) (w : BitVec 4) (s : State) :
    (s.latchCmd d).fltWindow w = s.fltWindow w := rfl

theorem legalWidth_iff (w : BitVec 4) : legalWidth w = true ↔ w = 2#4 ∨ w = 4#4 := by
  simp [legalWidth]

/-- Two windows whose bytes read alike are the same bytes. -/
theorem State.memRead_ext {s t : State} {off n : Nat}
    (h : ∀ k, k < n → t.bufByte (off + k) = s.bufByte (off + k)) : t.memRead off n = s.memRead off n :=
  List.map_congr_left fun k hk => h k (List.mem_range.mp hk)

/-- Comparing both bytes is comparing the 16-bit values (R35). -/
theorem matchFlag_eq (c : Crc) (e : Word) : matchFlag c e = decide (c = e.extractLsb' 0 16) := by
  rw [Bool.eq_iff_iff]
  simp only [matchFlag, Bool.and_eq_true, beq_iff_eq, decide_eq_true_eq]
  constructor
  · rintro ⟨lo, hi⟩
    apply BitVec.eq_of_getLsbD_eq
    intro i h
    by_cases h8 : i < 8
    · have := congrArg (fun v => v.getLsbD i) lo
      simpa [h8, h] using this
    · have := congrArg (fun v => v.getLsbD (i - 8)) hi
      simpa [h, show 8 + (i - 8) = i by omega, show i - 8 < 8 by omega] using this
  · rintro rfl
    constructor <;> (apply BitVec.eq_of_getLsbD_eq; intro i hi; simp [hi])

/-- `exec_crc_calc` finishes with the window's CRC or raises OUT_OF_RANGE (R86). -/
theorem State.crcCalc_cases (s : State) :
    (s.crcWindowOk = true ∧ s.crcCalc = s.finishCrc (crc16 s.crcWindow) false) ∨
    (s.crcWindowOk = false ∧ s.crcCalc = s.raise .outOfRange) := by
  cases h : s.crcWindowOk
  · exact .inr ⟨rfl, by simp [State.crcCalc, h]⟩
  · exact .inl ⟨rfl, by simp [State.crcCalc, h]⟩

/-- `exec_crc_verify` finishes with the window's CRC and its comparison, or raises OUT_OF_RANGE (R87). -/
theorem State.crcVerify_cases (s : State) :
    (s.crcWindowOk = true ∧
      s.crcVerify = s.finishCrc (crc16 s.crcWindow) (matchFlag (crc16 s.crcWindow) s.expect)) ∨
    (s.crcWindowOk = false ∧ s.crcVerify = s.raise .outOfRange) := by
  cases h : s.crcWindowOk
  · exact .inr ⟨rfl, by simp [State.crcVerify, h]⟩
  · exact .inl ⟨rfl, by simp [State.crcVerify, h]⟩

/-- `exec_flt_dec` finishes with the staged word, or raises one of its two errors, the width's first
(R99, R112). -/
theorem State.fltDec_cases (w : BitVec 4) (s : State) :
    (legalWidth w = true ∧ s.fltWindowOk w = true ∧ s.fltDec w = s.finishFlt (stagedWord (s.fltWindow w))) ∨
    (legalWidth w = true ∧ s.fltWindowOk w = false ∧ s.fltDec w = s.raise .outOfRange) ∨
    (legalWidth w = false ∧ s.fltDec w = s.raise .invalidWidth) := by
  cases hw : legalWidth w
  · exact .inr (.inr ⟨rfl, by simp [State.fltDec, hw]⟩)
  · cases h : s.fltWindowOk w
    · exact .inr (.inl ⟨rfl, rfl, by simp [State.fltDec, hw, h]⟩)
    · exact .inl ⟨rfl, rfl, by simp [State.fltDec, hw, h]⟩

/-- A CMD write ends in exactly one of the three outcomes of a command: a CRC result, a float result or an
error (R70). -/
theorem State.writeCmd_cases (d : Word) (s : State) :
    (∃ c m, s.writeCmd d = (s.latchCmd d).finishCrc c m) ∨
    (∃ w, s.writeCmd d = (s.latchCmd d).finishFlt w) ∨
    (∃ e, e ≠ .none ∧ s.writeCmd d = (s.latchCmd d).raise e) := by
  simp only [State.writeCmd]
  cases decodeCmd d with
  | crcCalc =>
    rcases (s.latchCmd d).crcCalc_cases with ⟨-, h⟩ | ⟨-, h⟩
    · exact .inl ⟨_, _, h⟩
    · exact .inr (.inr ⟨_, by decide, h⟩)
  | crcVerify =>
    rcases (s.latchCmd d).crcVerify_cases with ⟨-, h⟩ | ⟨-, h⟩
    · exact .inl ⟨_, _, h⟩
    · exact .inr (.inr ⟨_, by decide, h⟩)
  | fltDec w =>
    rcases (s.latchCmd d).fltDec_cases w with ⟨-, -, h⟩ | ⟨-, -, h⟩ | ⟨-, h⟩
    · exact .inr (.inl ⟨_, h⟩)
    · exact .inr (.inr ⟨_, by decide, h⟩)
    · exact .inr (.inr ⟨_, by decide, h⟩)
  | illegal => exact .inr (.inr ⟨_, by decide, rfl⟩)

/-- A CMD write keeps the argument registers, the buffer and the port, and stores the word (R70, R111). -/
theorem State.writeCmd_keeps (d : Word) (s : State) :
    (s.writeCmd d).cmd = d ∧ (s.writeCmd d).offset = s.offset ∧ (s.writeCmd d).length = s.length ∧
    (s.writeCmd d).expect = s.expect ∧ (s.writeCmd d).bufSize = s.bufSize ∧
    (s.writeCmd d).bufCap = s.bufCap ∧ (s.writeCmd d).buf = s.buf ∧ (s.writeCmd d).boot = s.boot ∧
    (s.writeCmd d).pending = s.pending ∧ (s.writeCmd d).owner = s.owner ∧
    (s.writeCmd d).replies = s.replies := by
  rcases State.writeCmd_cases d s with ⟨c, m, h⟩ | ⟨w, h⟩ | ⟨e, -, h⟩ <;> rw [h] <;> simp

/-- A bus write runs a command, writes a register, stores a byte or does nothing (R76). -/
theorem State.busWrite_cases (a : BusAddr) (d : Word) (s : State) :
    (a = Reg.cmd.addr ∧ s.busWrite a d = s.writeCmd d) ∨
    (∃ r, r ≠ .cmd ∧ a = r.addr ∧ s.busWrite a d = s.writeReg r d) ∨
    (∃ i, i < s.bufCap.toNat ∧ a.toNat = 0x8000 + i ∧ s.busWrite a d = s.storeByte i (d.extractLsb' 0 8)) ∨
    (s.classOf a = .rsvd ∧ s.busWrite a d = s) := by
  rcases classify_cases s.bufCap.toNat a with ⟨h, e⟩ | ⟨r, hr, h, e⟩ | ⟨i, hi, h, e⟩ | h
  · exact .inl ⟨e, by simp only [State.busWrite, State.classOf, h]⟩
  · exact .inr (.inl ⟨r, hr, e, by simp only [State.busWrite, State.classOf, h]⟩)
  · exact .inr (.inr (.inl ⟨i, hi, e, by simp only [State.busWrite, State.classOf, h]⟩))
  · exact .inr (.inr (.inr ⟨h, by simp only [State.busWrite, State.classOf, h]⟩))

/-- A register write keeps everything but OFFSET, LENGTH, EXPECT and BUF_SIZE (R71). -/
theorem State.writeReg_keeps (r : Reg) (d : Word) (s : State) :
    (s.writeReg r d).cmd = s.cmd ∧ (s.writeReg r d).status = s.status ∧
    (s.writeReg r d).crcResult = s.crcResult ∧ (s.writeReg r d).fltResult = s.fltResult ∧
    (s.writeReg r d).bufCap = s.bufCap ∧ (s.writeReg r d).buf = s.buf ∧ (s.writeReg r d).boot = s.boot ∧
    (s.writeReg r d).pending = s.pending ∧ (s.writeReg r d).owner = s.owner ∧
    (s.writeReg r d).replies = s.replies := by
  cases r <;> simp [State.writeReg]

/-- The clamp is never above BUF_CAP (R26). -/
theorem clampSize_le (v cap : Word) : (clampSize v cap).toNat ≤ cap.toNat := by
  unfold clampSize
  split
  · assumption
  · exact Nat.le_refl _

/-- The clamp is the smaller of the two (R26). -/
theorem clampSize_eq (v cap : Word) : clampSize v cap = BitVec.ofNat 32 (min v.toNat cap.toNat) := by
  unfold clampSize
  split
  · rename_i h
    rw [Nat.min_eq_left h]
    simp
  · rw [Nat.min_eq_right (by omega)]
    simp

/-- Bits 31:16 of a 16-bit half are zero (R28). -/
theorem low16_high (v : Word) : (low16 v).extractLsb' 16 16 = 0#16 := by
  apply BitVec.eq_of_getLsbD_eq
  intro i hi
  simp [low16]

/-- Bits 31:16 of a zero-extended CRC are zero (R24). -/
theorem crc_high (c : Crc) : (c.setWidth 32).extractLsb' 16 16 = 0#16 := by
  apply BitVec.eq_of_getLsbD_eq
  intro i hi
  simp [BitVec.getLsbD_of_ge]

/-- A step that answers a next state waited, reset the block, ran an instruction, or answered a request
outside the decode. -/
theorem step_cases {s t : State} (h : step s = .next t) :
    (s.pending = [] ∧ t = s) ∨
    (∃ rest, s.pending = .reset :: rest ∧ t = { s with pending := rest }.platformReset) ∨
    (∃ a r rest i, s.pending = .request a r :: rest ∧ s.admits a = true ∧ decode r = .instr i ∧
      exec i (s.accept a rest) = .next t) ∨
    (∃ a r rest e, s.pending = .request a r :: rest ∧ s.admits a = true ∧ decode r = .rejected e ∧
      execRejected e (s.accept a rest) = .next t) := by
  unfold step at h
  split at h
  · rename_i hp
    exact .inl ⟨hp, (Host.Outcome.next.inj h).symm⟩
  · rename_i rest hp
    exact .inr (.inl ⟨rest, hp, (Host.Outcome.next.inj h).symm⟩)
  · rename_i a r rest hp
    split at h
    · rename_i ha
      split at h
      · rename_i i hd
        exact .inr (.inr (.inl ⟨a, r, rest, i, hp, ha, hd, h⟩))
      · rename_i e hd
        exact .inr (.inr (.inr ⟨a, r, rest, e, hp, ha, hd, h⟩))
    · cases h

/-- A request outside the decode changes at most what the host has read (R75). -/
theorem execRejected_cases {e : DecodeError} {s t : State} (h : execRejected e s = .next t) :
    (e = .requestBits true ∧ t = s) ∨ (e = .requestBits false ∧ t = s.reply 0#32) := by
  cases e with
  | requestBits write =>
    cases write
    · exact .inr ⟨rfl, (Host.Outcome.next.inj h).symm⟩
    · exact .inl ⟨rfl, (Host.Outcome.next.inj h).symm⟩

end Sys2Proof.Machine
end

