-- ==== Sys2Proof/Laws/PerInstr.lean ====
section
/-! SUPPORT. Statements made for every instruction, one lemma per constructor. -/

namespace Sys2Proof.Laws

/-- The request word of every instruction has bits 30:16 zero, so it is inside the block's decode
(30_encoding R53). -/
def RequestBits.Statement (i : Instr) : Prop := reqZ (encode i).word = 0#15

theorem RequestBits.busWr (addr : BusAddr) (data : Word) : RequestBits.Statement (.busWr addr data) :=
  reqZ_requestWord true addr

theorem RequestBits.busRd (addr : BusAddr) : RequestBits.Statement (.busRd addr) :=
  reqZ_requestWord false addr

theorem RequestBits.crcCalc : RequestBits.Statement .crcCalc := reqZ_requestWord true 0#16

theorem RequestBits.crcVerify : RequestBits.Statement .crcVerify := reqZ_requestWord true 0#16

theorem RequestBits.fltDec (width : BitVec 4) : RequestBits.Statement (.fltDec width) :=
  reqZ_requestWord true 0#16

end Sys2Proof.Laws
end

