-- ==== Sys2Proof/Tests/Slice0.lean ====
section
/-! SUPPORT. The model's own tests. Expected values are those of spec/95_test_vectors.md or of the rules
named, written out by hand; none is the model's own answer. -/

namespace Sys2Proof.Tests

open Sys2Proof.Machine

/-- What a test looks at in the state an instruction leaves; none where it stopped. -/
def after {α : Type} (f : State → α) : Host.Outcome State Fault Refusal → Option α
  | .next t => some (f t)
  | .fault _ => none
  | .refused _ => none

/-- The buffer `01 03 00 00 00 0A` of V-VER with BUF_SIZE = 6, OFFSET = 0, LENGTH = 6. -/
def frame : State :=
  { State.reset with
    bufSize := 6#32, length := 6#32,
    buf := [(0, 0x01#8), (1, 0x03#8), (2, 0x00#8), (3, 0x00#8), (4, 0x00#8), (5, 0x0A#8)] }

/-- The buffer `3F 80 00 00` of V-ERR with BUF_SIZE = 4, OFFSET = 0, LENGTH = 4. -/
def one : State :=
  { State.reset with
    bufSize := 4#32, length := 4#32,
    buf := [(0, 0x3F#8), (1, 0x80#8), (2, 0x00#8), (3, 0x00#8)] }

/-- The two registers a CRC command answers in: STATUS and CRC_RESULT. -/
def crcView (s : State) : Word × Word := (s.readReg .status, s.readReg .crcResult)

/-- The two registers FLT.DEC answers in: STATUS and FLT_RESULT. -/
def fltView (s : State) : Word × Word := (s.readReg .status, s.readReg .fltResult)

/-! Well-formedness: the one check, refused and passed. -/

theorem test_wf_refuses_command_as_write :
    (Instr.busWr 0x0000#16 0x00000001#32).wellFormed = false ∧
    (Instr.busWr 0x0000#16 0x00000002#32).wellFormed = false ∧
    (Instr.busWr 0x0000#16 0x00000043#32).wellFormed = false := by decide

theorem test_wf_passes_illegal_command_write :
    (Instr.busWr 0x0000#16 0x00000143#32).wellFormed = true ∧
    (Instr.busWr 0x0008#16 0x00000001#32).wellFormed = true := by decide

/-! Decoding: words written bit by bit from 30_encoding R53 and R55. -/

/-- `wr OFFSET, 6` is request 0x80000008 with data 0x00000006 (40_host_bus R76, example). -/
theorem test_decode_busWr :
    decode ⟨0b10000000000000000000000000001000#32, 0x00000006#32⟩ = .instr (.busWr 0x0008#16 6#32) := by
  decide

/-- `rd STATUS` is request 0x00000004 (R77, example). -/
theorem test_decode_busRd :
    decode ⟨0b00000000000000000000000000000100#32, 0#32⟩ = .instr (.busRd 0x0004#16) := by decide

/-- `wr CMD, 0x1` (R64, R86). -/
theorem test_decode_crcCalc :
    decode ⟨0b10000000000000000000000000000000#32, 0b00000000000000000000000000000001#32⟩ =
      .instr .crcCalc := by decide

/-- `wr CMD, 0x2` (R64, R87). -/
theorem test_decode_crcVerify :
    decode ⟨0b10000000000000000000000000000000#32, 0b00000000000000000000000000000010#32⟩ =
      .instr .crcVerify := by decide

/-- `wr CMD, 0x23`: OP 3, WIDTH 2 (R99). -/
theorem test_decode_fltDec :
    decode ⟨0b10000000000000000000000000000000#32, 0b00000000000000000000000000100011#32⟩ =
      .instr (.fltDec 2#4) := by decide

/-- V-BUS-12: request word 0x00010004, Z != 0, is outside the decode. -/
theorem test_decode_rejects_request_bits :
    decode ⟨0x00010004#32, 0#32⟩ = .rejected (.requestBits false) := by decide

/-- V-ERR-13 to V-ERR-18: command words that are illegal. -/
theorem test_decode_illegal_commands :
    [0x00000000#32, 0x00000004#32, 0x0000000F#32, 0x00000011#32, 0x00000143#32, 0x80000001#32].map decodeCmd =
      List.replicate 6 .illegal := by decide

/-- Each table row's word, placed after reset, is what the next step runs (CMD and the replies tell). -/
theorem test_fetch_runs_each_row :
    after State.cmd (step (State.reset.withFetchWord 32 0x00000001)) = some 1#32 ∧
    after State.cmd (step (State.reset.withFetchWord 32 0x00000002)) = some 2#32 ∧
    after State.cmd (step (State.reset.withFetchWord 32 0x00000043)) = some 0x43#32 ∧
    after State.replies (step (State.reset.withFetchWord 32 0x00000020)) = some [0x1000#32] ∧
    after State.offset (step (State.reset.withFetchWord 64 0x0000000680000008)) = some 6#32 := by decide

/-! The CRC (V-BIT, V-BYTE, V-CRC). -/

theorem test_crcBit_vectors :
    crcBit 0x0001#16 = 0xA001#16 ∧ crcBit 0x0002#16 = 0x0001#16 ∧ crcBit 0xFFFF#16 = 0xDFFE#16 ∧
    crcBit 0xFFFE#16 = 0x7FFF#16 ∧ crcBit 0x8000#16 = 0x4000#16 := by decide

theorem test_crcByte_vectors :
    crcByte 0xFFFF#16 0x01#8 = 0x807E#16 ∧ crcByte 0x807E#16 0x03#8 = 0x2140#16 ∧
    crcByte 0xFFFF#16 0x80#8 = 0xE0BE#16 ∧ crcByte 0x1234#16 0x56#8 = 0xE993#16 := by decide

/-- V-CRC-09 and V-CRC-11. -/
theorem test_crc16_messages :
    crc16 [0x11#8, 0x03#8, 0x00#8, 0x6B#8, 0x00#8, 0x03#8] = 0x8776#16 ∧
    crc16 [0xFF#8, 0xFF#8] = 0x0000#16 := by decide +kernel

/-- R86, example. -/
theorem test_crcCalc_example : after crcView (exec .crcCalc frame) = some (0x100#32, 0xCDC5#32) := by decide +kernel

/-- V-ERR-11: OFFSET = 0xFFFFFFFF with LENGTH = 1 does not wrap. -/
theorem test_crcCalc_no_wrap :
    after crcView (exec .crcCalc { frame with offset := 0xFFFFFFFF#32, length := 1#32 }) =
      some (0x130#32, 0#32) := by decide

/-- V-VER-01. -/
theorem test_crcVerify_match :
    after crcView (exec .crcVerify { frame with expect := 0xCDC5#32 }) = some (0x202#32, 0xCDC5#32) := by decide +kernel

/-- V-VER-02: swapped bytes are a mismatch, not an error. -/
theorem test_crcVerify_swapped :
    after crcView (exec .crcVerify { frame with expect := 0xC5CD#32 }) = some (0x200#32, 0xCDC5#32) := by decide +kernel

/-! The float codec (V-FLT, V-ERR). -/

/-- P3: OFFSET 1, width 4 over `41 20 00 00 3F` reads `20 00 00 3F`. -/
theorem test_fltDec_odd_offset :
    after fltView (exec (.fltDec 4#4) { State.reset with
      bufSize := 8#32, offset := 1#32,
      buf := [(0, 0x41#8), (1, 0x20#8), (2, 0x00#8), (3, 0x00#8), (4, 0x3F#8)] }) =
      some (0x300#32, 0x2000003F#32) := by decide

/-- V-ERR-05: the width is checked before the window. -/
theorem test_fltDec_width_first :
    after fltView (exec (.fltDec 15#4) { one with offset := 100#32 }) = some (0x320#32, 0#32) := by decide

/-- V-FLT-01 and V-FLT-10: what the patterns mean. -/
theorem test_binary32_values :
    binary32Value 0x3F800000#32 = .finite false (2 ^ 23) (-23) ∧
    binary32Value 0x00000001#32 = .finite false 1 (-149) ∧
    binary32Value 0xFF800000#32 = .infinity true ∧ binary32Value 0x7F800001#32 = .nan false := by decide

/-! The bus (V-BUS, V-ERR). -/

/-- V-BUS-03: the clamp of BUF_SIZE. -/
theorem test_busWr_clamp :
    after State.bufSize (exec (.busWr 0x001C#16 0xFFFFFFFF#32) State.reset) = some 0x1000#32 := by decide

/-- V-ERR-17: RSVD bit 8 set; ILLEGAL_CMD with LAST_OP = 3. -/
theorem test_busWr_illegal :
    after fltView (exec (.busWr 0x0000#16 0x00000143#32) one) = some (0x310#32, 0#32) := by decide

/-- V-BUS-10: only DATA[7:0] is stored; and the read gives it back. -/
theorem test_busRd_stored_byte :
    after State.replies (exec (.busRd 0x8007#16) (State.reset.busWrite 0x8007#16 0x1AB#32)) =
      some [0xAB#32] := by decide

/-- V-BUS-08, V-BUS-09, V-BUS-11: a misaligned, a reserved and a too high address read 0. -/
theorem test_busRd_reserved :
    [0x0006#16, 0x0024#16, 0x9000#16].map (one.busRead) = [0#32, 0#32, 0#32] := by decide

/-! The host's listing (30_encoding R63, R64). -/

/-- P1's first lines: `wr BUF_SIZE, 0x6`, `wr buf+0, 0x1`, `rd STATUS`. -/
theorem test_listing :
    assemble "wr BUF_SIZE, 0x6 ; six bytes\nwr buf+0, 0x1\n\nrd STATUS -> 0x0".toList =
      some [⟨0x8000001C#32, 6#32⟩, ⟨0x80008000#32, 1#32⟩, ⟨0x00000004#32, 0#32⟩] := by decide

theorem test_pseudo_listing :
    assemble "crc 0, 6\nflt.dec 4\nload 0, 1, 3".toList =
      some [⟨0x80000008#32, 0#32⟩, ⟨0x8000000C#32, 6#32⟩, ⟨0x80000000#32, 1#32⟩, ⟨0x80000000#32, 0x43#32⟩,
        ⟨0x80008000#32, 1#32⟩, ⟨0x80008001#32, 3#32⟩] := by decide

/-! Witnesses: for each statement with hypotheses, a state and operands that meet them all, at the
boundaries of its clauses. -/

/-- `one` with a request of host 0 pending. -/
def asking (r : Request) (rest : List HostEvent) : State := { one with pending := .request 0 r :: rest }

/-- A state after a CRC.VERIFY that matched, with another command pending. -/
def verified : State :=
  { frame with
    cmd := 2#32, status := ⟨true, .none, 0x2#4⟩, expect := 0xCDC5#32, crcResult := 0xCDC5#32,
    pending := [.request 0 ⟨0x80000000#32, 1#32⟩] }

theorem witness_DecodeInvertsEncode : (Instr.busWr 0xFFFF#16 0xFFFFFFFF#32).wellFormed = true := by decide

theorem witness_EncodeInvertsDecode : decode ⟨0x0000FFFF#32, 7#32⟩ = .instr (.busRd 0xFFFF#16) := by decide

theorem witness_RequestDecoderFollowsTheTableRows :
    0x0000FFFF#32 &&& 0xFFFF0000#32 = 0x00000000#32 ∧ 0x8000FFFF#32 &&& 0xFFFF0000#32 = 0x80000000#32 ∧
    0x00010000#32 &&& 0xFFFF0000#32 ≠ 0x00000000#32 ∧
    0x00010000#32 &&& 0xFFFF0000#32 ≠ 0x80000000#32 := by decide

theorem witness_StepRunsDecodedInstruction :
    (asking ⟨0x80000000#32, 1#32⟩ [.reset]).pending = .request 0 ⟨0x80000000#32, 1#32⟩ :: [.reset] ∧
    (asking ⟨0x80000000#32, 1#32⟩ [.reset]).owner = none ∧
    decode ⟨0x80000000#32, 1#32⟩ = .instr .crcCalc := by decide

/-- Z = 1; the first and last reserved addresses; the first past the buffer; a misaligned register. -/
theorem witness_ReservedRequestsReadZeroAndIgnoreWrites :
    (asking ⟨0x00010004#32, 0#32⟩ []).owner = none ∧
    (0x00010004#32).extractLsb' 16 15 ≠ 0#15 ∧ (0x00010004#32).getLsbD 31 = false ∧
    0x0024 ≤ (0x80000024#32).toNat % 2 ^ 16 ∧ (0x80000024#32).getLsbD 31 = true ∧
    (0x80007FFF#32).toNat % 2 ^ 16 < 0x8000 ∧
    0x8000 + one.bufCap.toNat ≤ (0x80009000#32).toNat % 2 ^ 16 ∧
    (0x80000006#32).toNat % 2 ^ 16 % 4 ≠ 0 := by decide

theorem witness_SecondHostIsRefused :
    ({ asking ⟨0#32, 0#32⟩ [] with owner := some 1 } : State).pending = .request 0 ⟨0#32, 0#32⟩ :: [] ∧
    ({ asking ⟨0#32, 0#32⟩ [] with owner := some 1 } : State).owner = some 1 ∧ (0 : Nat) ≠ 1 := by decide

theorem witness_BlockWaitsForTransactions : one.pending = [] := by decide

/-- The hypothesis of ResetLoadsEveryRegister and of ResetDrawsTheBufferAnew. -/
theorem witness_ResetEvent : ({ verified with pending := [.reset] } : State).pending = .reset :: [] := by
  decide

theorem witness_InvariantHoldsAtReset :
    1 ≤ (1#32).toNat ∧ (32768#32).toNat ≤ Config.bufCapMax := by decide

theorem witness_EveryStepKeepsInvariant : verified.Inv ∧ ∃ t, step verified = .next t := by
  refine ⟨⟨?_, ?_, ⟨?_, ?_, .inr ?_⟩, ?_⟩, _, rfl⟩
  · unfold State.sizesLegal; decide
  · unfold State.reservedZero; decide
  · decide
  · decide
  · decide
  · decide

theorem witness_EveryTransactionOfTheOwnerGoesOn :
    ∀ agent r rest, verified.pending = .request agent r :: rest →
      verified.owner = none ∨ verified.owner = some agent := fun _ _ _ _ => .inl rfl

/-- The hypotheses of ReadReturnsBufferByte, WriteStoresBufferByte and ReadAfterWriteReturnsTheByte, at the
first and the last buffer address. -/
theorem witness_BufferAddress :
    0x8000 ≤ (0x8000#16).toNat ∧ (0x8FFF#16).toNat < 0x8000 + one.bufCap.toNat ∧
    ∃ t, exec (.busWr 0x8FFF#16 0x1AB#32) one = .next t := ⟨by decide, by decide, _, rfl⟩

/-- The hypotheses of ReadChangesNothing, CrcCommandsFrame, FltDecFrame, ReadValuesWithoutSideEffect,
BufferSizeIsClamped, WritesCanBeRepeated and OnlyCommandsWriteStatus. -/
theorem witness_EveryInstructionAnswers :
    (∃ t, exec (.busRd 0x0000#16) one = .next t) ∧ (∃ t, exec (.busWr 0x0008#16 9#32) one = .next t) ∧
    (∃ t, exec .crcCalc one = .next t) ∧ (∃ t, exec .crcVerify one = .next t) ∧
    (∃ t, exec (.fltDec 4#4) one = .next t) := ⟨⟨_, rfl⟩, ⟨_, rfl⟩, ⟨_, rfl⟩, ⟨_, rfl⟩, ⟨_, rfl⟩⟩

theorem witness_WriteToCmdStoresThenRuns :
    decodeCmd 0x1#32 = .crcCalc ∧ decodeCmd 0x2#32 = .crcVerify ∧ decodeCmd 0xF3#32 = .fltDec 15#4 ∧
    decodeCmd 0x0#32 = .illegal ∧
    0x8000#16 ≠ 0x0000#16 ∧ Reg.bufCap.addr ≠ 0x8000#16 ∧ (0x8000#16).toNat ≠ 0x8000 + 1 := by decide

/-- One word for each clause: RSVD, OP, WIDTH. -/
theorem witness_IllegalCommandWordIsReported :
    (0x00000101#32).extractLsb' 8 24 ≠ 0#24 ∧
    ((0x00000004#32).extractLsb' 0 4 ≠ 1#4 ∧ (0x00000004#32).extractLsb' 0 4 ≠ 2#4 ∧
      (0x00000004#32).extractLsb' 0 4 ≠ 3#4) ∧
    ((0x00000012#32).extractLsb' 0 4 = 2#4 ∧ (0x00000012#32).extractLsb' 4 4 ≠ 0#4) := by decide

/-- BufferCapacityIsConstant and the last clause of BufferSizeIsClamped. -/
theorem witness_BufferRegistersAcrossSteps :
    verified.bufSize.toNat ≤ verified.bufCap.toNat ∧
    ∃ t, step { verified with pending := [.reset] } = .next t := ⟨by decide, _, rfl⟩

theorem witness_OnlyHostBufferWritesChangeTheBuffer :
    ∃ t, exec (.busWr 0x8000#16 0x00#32) one = .next t ∧ t.bufByte 0 ≠ one.bufByte 0 :=
  ⟨_, rfl, by decide⟩

/-- WriteFrame: each of its premises on the address and the word. -/
theorem witness_WriteFrame :
    (0x0008#16 ≠ 0x0000#16 ∧ decodeCmd 0x43#32 ≠ .crcCalc ∧ decodeCmd 0x43#32 ≠ .crcVerify) ∧
    (∀ w, decodeCmd 0x1#32 ≠ .fltDec w) ∧ one.storedIndex 0x8003#16 = some 3 ∧
    one.storedIndex 0x8003#16 ≠ some 2 ∧ one.storedIndex 0x0008#16 = none := by decide

theorem witness_BitStepBitByBit : 15 < 16 := by decide

/-- CrcCalcResult, CrcVerifyResult, VerifyAcceptsWhatCalcComputed: the last valid window, an empty one at the
end, and the first invalid ones. -/
theorem witness_CrcWindows :
    (0#32).toNat + (4#32).toNat ≤ one.bufSize.toNat ∧ (4#32).toNat + (0#32).toNat ≤ one.bufSize.toNat ∧
    one.bufSize.toNat < (5#32).toNat + (0#32).toNat ∧ one.bufSize.toNat < (1#32).toNat + (4#32).toNat := by
  decide

/-- The last byte of a window of length 3. -/
theorem witness_MemReadListsBytesInOrder : 2 < 3 := by decide

theorem witness_MismatchIsNoError :
    frame.offset.toNat + frame.length.toNat ≤ frame.bufSize.toNat ∧
    crc16 (frame.memRead frame.offset.toNat frame.length.toNat) ≠ frame.expect.extractLsb' 0 16 := by
  decide +kernel

/-- The same two bytes `00 00`, at 2 of `one` and at 2 of `frame`, whose other registers differ. -/
theorem witness_CrcDependsOnWindowBytesAlone :
    (2#32).toNat + (2#32).toNat ≤ one.bufSize.toNat ∧ (2#32).toNat + (2#32).toNat ≤ frame.bufSize.toNat ∧
    one.memRead 2 2 = frame.memRead 2 2 := by decide

theorem witness_SingleBitFlipChangesTheResult :
    frame.offset.toNat + frame.length.toNat ≤ frame.bufSize.toNat ∧ frame.offset.toNat ≤ 5 ∧
    5 < frame.offset.toNat + frame.length.toNat ∧ 7 < 8 := by decide

/-- FltDecResult and FloatBytesAreBigEndian: the last valid windows and the first invalid ones. -/
theorem witness_FltWindows :
    (15#4 ≠ 2#4 ∧ 15#4 ≠ 4#4) ∧ (2#32).toNat + 2 ≤ one.bufSize.toNat ∧
    (0#32).toNat + 4 ≤ one.bufSize.toNat ∧ one.bufSize.toNat < (3#32).toNat + (2#4).toNat ∧
    one.bufSize.toNat < (1#32).toNat + (4#4).toNat := by decide

theorem witness_WidthTwoIsWidthFourOfThePaddedBytes :
    one.offset.toNat + 2 ≤ one.bufSize.toNat ∧ one.offset.toNat + 4 ≤ one.bufSize.toNat ∧
    one.memRead one.offset.toNat 4 = [one.bufByte one.offset.toNat, one.bufByte (one.offset.toNat + 1), 0#8, 0#8] := by
  decide

theorem witness_ValueDeterminesPattern : ∀ q, binary32Value 0x80000000#32 ≠ .nan q := by decide

theorem witness_ErrorLeavesEverythingElse :
    ∃ t, exec (.busWr 0x0000#16 0x33#32) one = .next t ∧ t.status.err ≠ .none := ⟨_, rfl, by decide⟩

theorem witness_FreshResultsAreResults :
    (∃ t, exec (.busWr 0x0000#16 0x1#32) one = .next t ∧ t.crcResultFresh) ∧
    (∃ t, exec (.busWr 0x0000#16 0x43#32) one = .next t ∧ t.fltResultFresh) ∧
    (∃ t, exec (.busWr 0x0000#16 0x2#32) one = .next t ∧ t.matchFresh) :=
  ⟨⟨_, rfl, .inl (by decide), by decide⟩, ⟨_, rfl, by decide, by decide⟩, ⟨_, rfl, by decide, by decide⟩⟩

/-- `one` with the CRC window ending before byte 3. -/
def short : State := { one with length := 3#32 }

/-- Two states that differ in byte 3 only, and commands whose windows end before it. -/
theorem witness_CommandsReadOnlyTheirWindow :
    short.storeByte 3 0xFF#8 = { short with buf := (short.storeByte 3 0xFF#8).buf, boot := short.boot } ∧
    decodeCmd 0x1#32 = .crcCalc ∧ short.offset.toNat + short.length.toNat ≤ short.bufSize.toNat ∧
    (∀ k, k < short.length.toNat →
      (short.storeByte 3 0xFF#8).bufByte (short.offset.toNat + k) = short.bufByte (short.offset.toNat + k)) ∧
    decodeCmd 0x23#32 = .fltDec 2#4 ∧ short.offset.toNat + (2#4).toNat ≤ short.bufSize.toNat ∧
    (∀ k, k < (2#4).toNat →
      (short.storeByte 3 0xFF#8).bufByte (short.offset.toNat + k) = short.bufByte (short.offset.toNat + k)) :=
  by decide

theorem witness_WrittenWindowIgnoresResetContents :
    frame.windowWritten frame.offset.toNat frame.length.toNat ∧
    ∃ t, exec .crcVerify { frame with boot := 7 } = .next t := by
  refine ⟨?_, _, rfl⟩
  unfold State.windowWritten
  decide

/-- Two states that differ in a reserved bit of EXPECT, which no host can see. -/
theorem witness_NoHiddenState :
    frame.sameBlock { frame with expect := 0x00010000#32 } ∧ frame ≠ { frame with expect := 0x00010000#32 } :=
  ⟨⟨fun r => by cases r <;> decide, fun _ => rfl⟩, by decide⟩

theorem witness_PseudoInstructionsExpand :
    0x7FFF < 0x8000 ∧ [0x01#8, 0x02#8] ≠ [] ∧ 0x7FFE + [0x01#8, 0x02#8].length ≤ 0x8000 := by decide

end Sys2Proof.Tests
end

/-! PROOFS. What one instruction and one step can do, and the two buffer registers (10_state R26, R27). -/

namespace Sys2Proof.Machine

/-! Every instruction, said once. -/

theorem exec_crcCalc (s : State) : exec .crcCalc s = .next (s.writeCmd (commandWord 0#4 0x1#4)) := rfl

theorem exec_crcVerify (s : State) : exec .crcVerify s = .next (s.writeCmd (commandWord 0#4 0x2#4)) := rfl

theorem exec_fltDec (w : BitVec 4) (s : State) :
    exec (.fltDec w) s = .next (s.writeCmd (commandWord w 0x3#4)) := by
  simp [exec, execFltDec, State.writeCmd]

/-- An instruction that answers a next state replied to a read, wrote to the bus, or, where it is a command,
wrote the word it is decoded from to CMD (R76, R77, R64). -/
theorem exec_cases {i : Instr} {s t : State} (h : exec i s = .next t) :
    (∃ a, i = .busRd a ∧ t = s.reply (s.busRead a)) ∨
    (∃ a d, i = .busWr a d ∧ t = s.busWrite a d) ∨
    (∃ d, decodeCmd d ≠ .illegal ∧ i = decodeWrite Reg.cmd.addr d ∧ t = s.writeCmd d) := by
  cases i with
  | busWr a d => exact .inr (.inl ⟨a, d, rfl, (Host.Outcome.next.inj h).symm⟩)
  | busRd a => exact .inl ⟨a, rfl, (Host.Outcome.next.inj h).symm⟩
  | crcCalc =>
    rw [exec_crcCalc] at h
    exact .inr (.inr ⟨_, by simp, by simp [decodeWrite, Reg.addr], (Host.Outcome.next.inj h).symm⟩)
  | crcVerify =>
    rw [exec_crcVerify] at h
    exact .inr (.inr ⟨_, by simp, by simp [decodeWrite, Reg.addr], (Host.Outcome.next.inj h).symm⟩)
  | fltDec w =>
    rw [exec_fltDec] at h
    exact .inr (.inr ⟨_, by simp, by simp [decodeWrite, Reg.addr], (Host.Outcome.next.inj h).symm⟩)

/-! The bus at a register's own address. -/

/-- A bus write to the address of a register of class REG is the write of that register (R76). -/
theorem State.busWrite_reg {r : Reg} (hr : r ≠ .cmd) (d : Word) (s : State) :
    s.busWrite r.addr d = s.writeReg r d := by
  simp only [State.busWrite, State.classOf, classify_reg _ hr]

/-- A bus read of a register's address returns that register's value (R77). -/
theorem State.busRead_reg (r : Reg) (s : State) : s.busRead r.addr = s.readReg r := by
  by_cases hr : r = .cmd
  · subst hr
    simp only [State.busRead, State.classOf, classify_cmd]
  · simp only [State.busRead, State.classOf, classify_reg _ hr]

/-! BUF_CAP (R27). -/

@[simp] theorem State.writeCmd_bufCap (d : Word) (s : State) : (s.writeCmd d).bufCap = s.bufCap := by
  obtain ⟨-, -, -, -, -, hcap, -⟩ := s.writeCmd_keeps d
  exact hcap

@[simp] theorem State.writeReg_bufCap (r : Reg) (d : Word) (s : State) :
    (s.writeReg r d).bufCap = s.bufCap := by
  obtain ⟨-, -, -, -, hcap, -⟩ := s.writeReg_keeps r d
  exact hcap

@[simp] theorem State.busWrite_bufCap (a : BusAddr) (d : Word) (s : State) :
    (s.busWrite a d).bufCap = s.bufCap := by
  rcases s.busWrite_cases a d with ⟨-, h⟩ | ⟨r, -, -, h⟩ | ⟨i, -, -, h⟩ | ⟨-, h⟩ <;> rw [h]
  · exact s.writeCmd_bufCap d
  · exact s.writeReg_bufCap r d
  · exact State.storeByte_bufCap i _ s

theorem exec_keeps_bufCap {i : Instr} {s t : State} (h : exec i s = .next t) : t.bufCap = s.bufCap := by
  rcases exec_cases h with ⟨a, -, rfl⟩ | ⟨a, d, -, rfl⟩ | ⟨d, -, -, rfl⟩ <;> simp

theorem step_keeps_bufCap {s t : State} (h : step s = .next t) : t.bufCap = s.bufCap := by
  rcases step_cases h with ⟨-, rfl⟩ | ⟨rest, -, rfl⟩ | ⟨a, r, rest, i, -, -, -, h⟩ | ⟨a, r, rest, e, -, -, -, h⟩
  · rfl
  · simp
  · simpa using exec_keeps_bufCap h
  · rcases execRejected_cases h with ⟨-, rfl⟩ | ⟨-, rfl⟩ <;> simp

/-! BUF_SIZE (R26). -/

theorem clampSize_toNat (v cap : Word) : (clampSize v cap).toNat = min v.toNat cap.toNat := by
  rw [clampSize_eq, BitVec.toNat_ofNat, Nat.mod_eq_of_lt (by omega)]

@[simp] theorem State.writeCmd_bufSize (d : Word) (s : State) : (s.writeCmd d).bufSize = s.bufSize := by
  obtain ⟨-, -, -, -, hsize, -⟩ := s.writeCmd_keeps d
  exact hsize

/-- A register write changes BUF_SIZE only where BUF_SIZE is the register (R71). -/
theorem State.writeReg_bufSize_of_ne {r : Reg} (hr : r ≠ .bufSize) (d : Word) (s : State) :
    (s.writeReg r d).bufSize = s.bufSize := by
  cases r with
  | bufSize => exact absurd rfl hr
  | _ => rfl

theorem State.busWrite_bufSize_addr (d : Word) (s : State) :
    s.busWrite Reg.bufSize.addr d = { s with bufSize := clampSize d s.bufCap } :=
  s.busWrite_reg (by decide) d

theorem State.busWrite_bufSize_of_ne {a : BusAddr} (ha : a ≠ Reg.bufSize.addr) (d : Word) (s : State) :
    (s.busWrite a d).bufSize = s.bufSize := by
  rcases s.busWrite_cases a d with ⟨-, h⟩ | ⟨r, -, rfl, h⟩ | ⟨i, -, -, h⟩ | ⟨-, h⟩ <;> rw [h]
  · exact s.writeCmd_bufSize d
  · exact s.writeReg_bufSize_of_ne (fun hr => ha (congrArg Reg.addr hr)) d
  · exact State.storeByte_bufSize i _ s

/-- An instruction keeps BUF_SIZE, or it is the bus write to it, which stores the clamped word (R26). -/
theorem exec_bufSize_cases {i : Instr} {s t : State} (h : exec i s = .next t) :
    t.bufSize = s.bufSize ∨
    ∃ d, i = .busWr Reg.bufSize.addr d ∧ t.bufSize = clampSize d s.bufCap := by
  rcases exec_cases h with ⟨a, -, rfl⟩ | ⟨a, d, rfl, rfl⟩ | ⟨d, -, -, rfl⟩
  · exact .inl (by simp)
  · by_cases ha : a = Reg.bufSize.addr
    · subst ha
      exact .inr ⟨d, rfl, by rw [s.busWrite_bufSize_addr]⟩
    · exact .inl (s.busWrite_bufSize_of_ne ha d)
  · exact .inl (s.writeCmd_bufSize d)

theorem exec_keeps_bufSize_le {i : Instr} {s t : State} (hs : s.bufSize.toNat ≤ s.bufCap.toNat)
    (h : exec i s = .next t) : t.bufSize.toNat ≤ t.bufCap.toNat := by
  rw [exec_keeps_bufCap h]
  rcases exec_bufSize_cases h with ht | ⟨d, -, ht⟩ <;> rw [ht]
  · exact hs
  · exact clampSize_le d s.bufCap

theorem step_keeps_bufSize_le {s t : State} (hs : s.bufSize.toNat ≤ s.bufCap.toNat)
    (h : step s = .next t) : t.bufSize.toNat ≤ t.bufCap.toNat := by
  rcases step_cases h with ⟨-, rfl⟩ | ⟨rest, -, rfl⟩ | ⟨a, r, rest, i, -, -, -, h⟩ | ⟨a, r, rest, e, -, -, -, h⟩
  · exact hs
  · simp
  · exact exec_keeps_bufSize_le (s := s.accept a rest) hs h
  · rcases execRejected_cases h with ⟨-, rfl⟩ | ⟨-, rfl⟩ <;> exact hs

end Sys2Proof.Machine

namespace Sys2Proof.Proofs

open Sys2Proof.Machine

/-- Settles O27: BUF_SIZE changes only by the clamped write, a reset or not at all. -/
theorem bufferSizeIsClamped : Obligations.BufferSizeIsClamped := by
  refine ⟨fun s d => ⟨_, rfl, ?_, ?_⟩, fun s t i h hi => ?_, fun _ => rfl, State.windowOk_iff,
    fun _ _ => step_keeps_bufSize_le⟩
  · exact (congrArg (·.bufSize.toNat) (s.busWrite_bufSize_addr d)).trans (clampSize_toNat d s.bufCap)
  · exact State.busRead_reg .bufSize _
  · rcases exec_bufSize_cases h with ht | ⟨d, rfl, -⟩
    · exact ht
    · exact absurd rfl (hi d)

/-- Settles O28: register writes, commands and replies leave BUF_CAP alone, and a reset gives it its own value. -/
theorem bufferCapacityIsConstant : Obligations.BufferCapacityIsConstant :=
  ⟨fun _ => rfl, State.busRead_reg .bufCap,
    fun s d => congrArg Host.Outcome.next (s.busWrite_reg (r := .bufCap) (by decide) d),
    fun _ _ => step_keeps_bufCap⟩

end Sys2Proof.Proofs

/-! PROOFS. What changes a buffer byte, and which bytes a command reads (20_memory R42, R43). -/

namespace Sys2Proof.Machine

/-! The buffer under each operation (R43, R72). -/

@[simp] theorem State.reply_bufByte (w : Word) (s : State) (j : Nat) :
    (s.reply w).bufByte j = s.bufByte j := rfl

@[simp] theorem State.writeCmd_bufByte (d : Word) (s : State) (j : Nat) :
    (s.writeCmd d).bufByte j = s.bufByte j := by
  obtain ⟨-, -, -, -, -, -, hbuf, hboot, -⟩ := s.writeCmd_keeps d
  exact State.bufByte_congr hbuf hboot j

@[simp] theorem State.writeReg_bufByte (r : Reg) (d : Word) (s : State) (j : Nat) :
    (s.writeReg r d).bufByte j = s.bufByte j := by
  obtain ⟨-, -, -, -, -, hbuf, hboot, -⟩ := s.writeReg_keeps r d
  exact State.bufByte_congr hbuf hboot j

/-- The address of a buffer byte stores to that byte (R54, R72). -/
theorem State.storedIndex_of_toNat {s : State} {a : BusAddr} {i : Nat} (ha : a.toNat = 0x8000 + i)
    (hi : i < s.bufCap.toNat) : s.storedIndex a = some i := by
  simp only [State.storedIndex, State.classOf, classify_buf ha hi]

/-- A bus write keeps byte `j`, or it addresses byte `j` and stores DATA[7:0] there (R72). -/
theorem State.busWrite_bufByte_cases (a : BusAddr) (d : Word) (s : State) (j : Nat) :
    (s.busWrite a d).bufByte j = s.bufByte j ∨
    (s.storedIndex a = some j ∧ a.toNat = 0x8000 + j ∧ (s.busWrite a d).bufByte j = d.extractLsb' 0 8) := by
  rcases s.busWrite_cases a d with ⟨-, h⟩ | ⟨r, -, -, h⟩ | ⟨i, hi, ha, h⟩ | ⟨-, h⟩ <;> rw [h]
  · exact .inl (s.writeCmd_bufByte d j)
  · exact .inl (s.writeReg_bufByte r d j)
  · by_cases hj : j = i
    · subst hj
      exact .inr ⟨State.storedIndex_of_toNat ha hi, ha, s.bufByte_storeByte_same j _⟩
    · exact .inl (s.bufByte_storeByte_other _ hj)
  · exact .inl rfl

/-! A command and the buffer it runs over (R42). -/

/-- `s` with its buffer bytes exchanged for those of the written bytes `m` and the reset number `n`. -/
def State.withBuffer (s : State) (m : Memory) (n : Nat) : State := { s with buf := m, boot := n }

/-- BUS.WR to CMD runs the command that the data word encodes (R70, R76). -/
theorem exec_busWr_cmd (d : Word) (s : State) : exec (.busWr 0x0000#16 d) s = .next (s.writeCmd d) := rfl

/-- What the two CRC commands have in common: `f` gives the MATCH of a computed CRC (R86, R87). -/
def State.crcRun (s : State) (f : Crc → Bool) : State :=
  if s.crcWindowOk then s.finishCrc (crc16 s.crcWindow) (f (crc16 s.crcWindow)) else s.raise .outOfRange

theorem State.crcCalc_eq_crcRun (s : State) : s.crcCalc = s.crcRun fun _ => false := rfl

theorem State.crcVerify_eq_crcRun (s : State) : s.crcVerify = s.crcRun (matchFlag · s.expect) := rfl

section WithBuffer

variable {s : State} {m : Memory} {n : Nat}

theorem State.crcRun_withBuffer {f : Crc → Bool}
    (h : s.crcWindowOk = true → (s.withBuffer m n).crcWindow = s.crcWindow) :
    (s.withBuffer m n).crcRun f = (s.crcRun f).withBuffer m n := by
  have hok : (s.withBuffer m n).crcWindowOk = s.crcWindowOk := rfl
  cases ok : s.crcWindowOk <;> simp only [State.crcRun, hok, ok]
  · rfl
  · rw [h ok]
    rfl

theorem State.fltDec_withBuffer {w : BitVec 4}
    (h : legalWidth w = true → s.fltWindowOk w = true → (s.withBuffer m n).fltWindow w = s.fltWindow w) :
    (s.withBuffer m n).fltDec w = (s.fltDec w).withBuffer m n := by
  have hok : (s.withBuffer m n).fltWindowOk w = s.fltWindowOk w := rfl
  rcases s.fltDec_cases w with ⟨hw, ok, e⟩ | ⟨hw, ok, e⟩ | ⟨hw, e⟩ <;> rw [e]
  · simp only [State.fltDec, hw, hok, ok, h hw ok]
    rfl
  · simp only [State.fltDec, hw, hok, ok]
    rfl
  · simp only [State.fltDec, hw]
    rfl

/-- A CMD write over another buffer does the same, if the window that its command reads has the same bytes
there; a command whose checks fail reads none (R42, R112). -/
theorem State.writeCmd_withBuffer {d : Word}
    (hcrc : decodeCmd d = .crcCalc ∨ decodeCmd d = .crcVerify → s.crcWindowOk = true →
      (s.withBuffer m n).crcWindow = s.crcWindow)
    (hflt : ∀ w, decodeCmd d = .fltDec w → legalWidth w = true → s.fltWindowOk w = true →
      (s.withBuffer m n).fltWindow w = s.fltWindow w) :
    (s.withBuffer m n).writeCmd d = (s.writeCmd d).withBuffer m n := by
  simp only [State.writeCmd, State.crcCalc_eq_crcRun, State.crcVerify_eq_crcRun]
  cases hd : decodeCmd d with
  | crcCalc => exact State.crcRun_withBuffer (s := s.latchCmd d) (hcrc (.inl hd))
  | crcVerify => exact State.crcRun_withBuffer (s := s.latchCmd d) (hcrc (.inr hd))
  | fltDec w => exact State.fltDec_withBuffer (s := s.latchCmd d) (hflt w hd)
  | illegal => rfl

end WithBuffer

end Sys2Proof.Machine

namespace Sys2Proof.Proofs

open Sys2Proof.Machine

/-- Settles O29: a read and a command keep every byte, and a bus write changes only the byte it addresses. -/
theorem onlyHostBufferWritesChangeTheBuffer : Obligations.OnlyHostBufferWritesChangeTheBuffer := by
  intro s t i h j hj
  rcases exec_cases h with ⟨a, -, rfl⟩ | ⟨a, d, rfl, rfl⟩ | ⟨d, -, -, rfl⟩
  · exact absurd (s.reply_bufByte _ j) hj
  · rcases s.busWrite_bufByte_cases a d j with same | ⟨hidx, ha, hbyte⟩
    · exact absurd same hj
    · exact ⟨a, d, rfl, hidx, ha, hbyte⟩
  · exact absurd (s.writeCmd_bufByte d j) hj

/-- Settles O55: a CMD write commutes with exchanging the buffer for one with the same window bytes. -/
theorem commandsReadOnlyTheirWindow : Obligations.CommandsReadOnlyTheirWindow := by
  intro s s' t t' d hs' hcrc hflt ht ht'
  obtain ⟨m, n, rfl⟩ : ∃ m n, s' = s.withBuffer m n := ⟨_, _, hs'⟩
  rw [exec_busWr_cmd] at ht ht'
  cases ht
  cases ht'
  refine State.writeCmd_withBuffer (fun hd ok => ?_) (fun w hd hw ok => ?_)
  · exact State.memRead_ext (hcrc _ hd rfl ((s.windowOk_iff _ _).mp ok))
  · exact State.memRead_ext (hflt w hd ((legalWidth_iff w).mp hw) ((s.windowOk_iff _ _).mp ok))

end Sys2Proof.Proofs

/-! PROOFS. The legal command words by value, and what a listing line expands to (30_encoding R57, R64). -/

namespace Sys2Proof

/-! A command word's value (R55, R57). -/

/-- Two fields of `n` bits packed into one word, the high one above the low one. -/
theorem toNat_shiftLeft_or_setWidth {n : Nat} (hn : n + n ≤ 32) (hi lo : BitVec n) :
    (hi.setWidth 32 <<< n ||| lo.setWidth 32).toNat = hi.toNat * 2 ^ n + lo.toNat := by
  have fits : hi.toNat * 2 ^ n < 2 ^ 32 := calc
    hi.toNat * 2 ^ n < 2 ^ n * 2 ^ n := Nat.mul_lt_mul_of_pos_right hi.isLt (Nat.two_pow_pos n)
    _ = 2 ^ (n + n) := (Nat.pow_add 2 n n).symm
    _ ≤ 2 ^ 32 := Nat.pow_le_pow_right (by decide) hn
  rw [BitVec.toNat_or, BitVec.toNat_shiftLeft, BitVec.toNat_setWidth_of_le (by omega),
    BitVec.toNat_setWidth_of_le (by omega), Nat.shiftLeft_eq, Nat.mod_eq_of_lt fits, ← Nat.shiftLeft_eq,
    Nat.shiftLeft_add_eq_or_of_lt lo.isLt]

theorem toNat_commandWord (w op : BitVec 4) : (commandWord w op).toNat = op.toNat + 16 * w.toNat := by
  rw [commandWord, BitVec.or_comm, toNat_shiftLeft_or_setWidth (by decide)]
  omega

theorem eq_commandWord_iff (v : Word) (w op : BitVec 4) :
    v = commandWord w op ↔ v.toNat = op.toNat + 16 * w.toNat := by
  rw [← BitVec.toNat_inj, toNat_commandWord]

/-! Each command is decoded from its own word and no other (R57). -/

theorem decodeCmd_eq_crcCalc_iff (v : Word) : decodeCmd v = .crcCalc ↔ v = commandWord 0#4 0x1#4 := by
  refine ⟨fun h => ?_, fun h => h ▸ decodeCmd_crcCalc⟩
  rcases decodeCmd_cases v with ⟨hd, hv⟩ | ⟨hd, -⟩ | ⟨w, hd, -⟩ | hd <;> cases hd.symm.trans h
  exact hv

theorem decodeCmd_eq_crcVerify_iff (v : Word) : decodeCmd v = .crcVerify ↔ v = commandWord 0#4 0x2#4 := by
  refine ⟨fun h => ?_, fun h => h ▸ decodeCmd_crcVerify⟩
  rcases decodeCmd_cases v with ⟨hd, -⟩ | ⟨hd, hv⟩ | ⟨w, hd, -⟩ | hd <;> cases hd.symm.trans h
  exact hv

theorem decodeCmd_eq_fltDec_iff (v : Word) (w : BitVec 4) :
    decodeCmd v = .fltDec w ↔ v = commandWord w 0x3#4 := by
  refine ⟨fun h => ?_, fun h => h ▸ decodeCmd_fltDec w⟩
  rcases decodeCmd_cases v with ⟨hd, -⟩ | ⟨hd, -⟩ | ⟨w', hd, hv⟩ | hd <;> cases hd.symm.trans h
  exact hv

theorem Command.eq_illegal_iff (c : Command) :
    c = .illegal ↔ c ≠ .crcCalc ∧ c ≠ .crcVerify ∧ ∀ w, c ≠ .fltDec w := by
  cases c <;> simp

/-- `flt.dec w` is the write of 0x00000003 + 16w to CMD (R57, R64). -/
theorem encode_fltDec (w : BitVec 4) :
    encode (.fltDec w) = ⟨0x80000000#32, BitVec.ofNat 32 (3 + 16 * w.toNat)⟩ :=
  congrArg (Request.mk 0x80000000#32) (BitVec.toNat_eq_nat.mp (toNat_commandWord w 0x3#4)).2

end Sys2Proof

namespace Sys2Proof.Machine

theorem bufAddr_of_lt {i : Nat} (h : i < 0x8000) : bufAddr i = some (BitVec.ofNat 16 (0x8000 + i)) :=
  if_pos h

/-- A `load` is the writes of its bytes at consecutive addresses, where all of them have one (R64). -/
theorem expandLoad_eq_mapIdx {i : Nat} {bytes : List Byte} (h : i + bytes.length ≤ 0x8000) :
    expandLoad i bytes = some (bytes.mapIdx fun k b =>
      wrRequest (BitVec.ofNat 16 (0x8000 + (i + k))) (b.setWidth 32)) := by
  induction bytes generalizing i with
  | nil => rfl
  | cons b bs ih =>
    rw [List.length_cons] at h
    have rest := ih (i := i + 1) (by omega)
    simp only [Nat.add_right_comm i 1] at rest
    simp only [expandLoad, bufAddr_of_lt (show i < 0x8000 by omega), rest, List.mapIdx_cons,
      Nat.add_zero, Nat.add_assoc]

end Sys2Proof.Machine

namespace Sys2Proof.Proofs

open Sys2Proof.Machine

/-- Settles O3: each command's word has its own value, and a word is illegal when it is no command's. -/
theorem commandWordsAreExactlyTheEighteen : Obligations.CommandWordsAreExactlyTheEighteen := by
  intro v
  have calc_iff := (decodeCmd_eq_crcCalc_iff v).trans (eq_commandWord_iff v 0#4 0x1#4)
  have verify_iff := (decodeCmd_eq_crcVerify_iff v).trans (eq_commandWord_iff v 0#4 0x2#4)
  have flt_iff := fun w => (decodeCmd_eq_fltDec_iff v w).trans (eq_commandWord_iff v w 0x3#4)
  refine ⟨calc_iff, verify_iff, flt_iff, ?_⟩
  rw [Command.eq_illegal_iff, ne_eq, calc_iff, ne_eq, verify_iff]
  refine and_congr_right' (and_congr_right' ⟨fun h k hk => ?_, fun h w => ?_⟩)
  · exact mt (flt_iff (BitVec.ofNatLT k hk)).mpr (h _)
  · exact mt (flt_iff w).mp (h w.toNat w.isLt)

/-- Settles O58: each command line is the encoding of its command, and `load` goes by induction on its bytes. -/
theorem pseudoInstructionsExpand : Obligations.PseudoInstructionsExpand := by
  refine ⟨rfl, rfl, fun w => ?_, fun i b hi => ?_, fun i bytes _ h => expandLoad_eq_mapIdx h,
    fun _ _ => rfl, fun off len e0 e1 => ?_, fun _ _ => rfl⟩
  · rw [← encode_fltDec]
    rfl
  · rw [HostLine.expand, bufAddr_of_lt hi]
    rfl
  · have expect_eq : e1.setWidth 32 <<< 8 ||| e0.setWidth 32 =
        BitVec.ofNat 32 (e1.toNat * 256 + e0.toNat) :=
      (BitVec.toNat_eq_nat.mp (toNat_shiftLeft_or_setWidth (by decide) e1 e0)).2
    rw [HostLine.expand, expect_eq]
    rfl

end Sys2Proof.Proofs

/-! PROOFS. The host bus: what a read returns, what a write stores, and what each leaves alone (40_host_bus
R70..R74). -/

namespace Sys2Proof.Machine

/-! Where a bus transaction goes, by its address. -/

/-- BUS.WR to the address of a register of class REG is the write of that register (R71, R76). -/
theorem exec_busWr_reg {r : Reg} (hr : r ≠ .cmd) (d : Word) (s : State) :
    exec (.busWr r.addr d) s = .next (s.writeReg r d) :=
  congrArg Host.Outcome.next (s.busWrite_reg hr d)

section BufferAddress

variable {s : State} {a : BusAddr} {i : Nat}

/-- A bus write to the address of a buffer byte stores DATA[7:0] in that byte (R72). -/
theorem State.busWrite_buf (ha : a.toNat = 0x8000 + i) (hi : i < s.bufCap.toNat) (d : Word) :
    s.busWrite a d = s.storeByte i (d.extractLsb' 0 8) := by
  simp only [State.busWrite, State.classOf, classify_buf ha hi]

/-- A bus read of the address of a buffer byte returns that byte zero-extended (R73). -/
theorem State.busRead_buf (ha : a.toNat = 0x8000 + i) (hi : i < s.bufCap.toNat) :
    s.busRead a = (s.bufByte i).setWidth 32 := by
  simp only [State.busRead, State.classOf, classify_buf ha hi]

end BufferAddress

/-! What the registers read as after an operation (R74). -/

@[simp] theorem State.reply_readReg (w : Word) (s : State) (r : Reg) :
    (s.reply w).readReg r = s.readReg r := by
  cases r <;> rfl

@[simp] theorem State.storeByte_readReg (i : Nat) (v : Byte) (s : State) (r : Reg) :
    (s.storeByte i v).readReg r = s.readReg r := by
  cases r <;> rfl

/-- A register write changes what no other register reads as (R71). -/
theorem State.writeReg_readReg_of_ne {r q : Reg} (h : q ≠ r) (d : Word) (s : State) :
    (s.writeReg r d).readReg q = s.readReg q := by
  cases r with
  | cmd | status | crcResult | fltResult | bufCap => rfl
  | offset | length | expect | bufSize => cases q <;> trivial

/-- A bus write outside CMD changes what no register at another address reads as (R70, R71, R72). -/
theorem State.busWrite_readReg_of_ne {a : BusAddr} (hcmd : a ≠ Reg.cmd.addr) {q : Reg} (hq : q.addr ≠ a)
    (d : Word) (s : State) : (s.busWrite a d).readReg q = s.readReg q := by
  rcases s.busWrite_cases a d with ⟨ha, -⟩ | ⟨r, -, rfl, h⟩ | ⟨i, -, -, h⟩ | ⟨-, h⟩
  · exact absurd ha hcmd
  · rw [h, State.writeReg_readReg_of_ne (fun e => hq (congrArg Reg.addr e))]
  · rw [h, State.storeByte_readReg]
  · rw [h]

/-- A bus write keeps every byte that it does not address (R43). -/
theorem State.busWrite_bufByte_of_ne {a : BusAddr} {j : Nat} (h : a.toNat ≠ 0x8000 + j) (d : Word) (s : State) :
    (s.busWrite a d).bufByte j = s.bufByte j :=
  (s.busWrite_bufByte_cases a d j).resolve_right fun ⟨_, ha, _⟩ => h ha

/-- A read has no side effect: the host sees the same registers and bytes after it (R73). -/
theorem State.sameBlock_of_exec_busRd {a : BusAddr} {s t : State} (h : exec (.busRd a) s = .next t) :
    s.sameBlock t := by
  obtain rfl : s.reply (s.busRead a) = t := Host.Outcome.next.inj h
  exact ⟨fun r => (s.reply_readReg _ r).symm, fun i => (s.reply_bufByte _ i).symm⟩

/-! A write to CMD (R70). -/

/-- BUSY is hardwired 0 (R20). -/
theorem Status.word_busy (st : Status) : st.word.getLsbD 0 = false := by
  rw [Status.word, BitVec.getLsbD_append]
  rfl

/-- The body of a decoded command, in the state where CMD and LAST_OP are stored (R70, R107). -/
def State.runCommand (s : State) : Command → State
  | .crcCalc => s.crcCalc
  | .crcVerify => s.crcVerify
  | .fltDec w => s.fltDec w
  | .illegal => s.raise .illegalCmd

/-- A write to CMD stores the word and its OP, then runs the command that the word decodes to (R70). -/
theorem exec_busWr_cmd_of_decodeCmd {d : Word} {c : Command} (hc : decodeCmd d = c) (s : State) :
    exec (.busWr 0x0000#16 d) s = .next ((s.latchCmd d).runCommand c) := by
  rw [exec_busWr_cmd, State.writeCmd, hc]
  cases c <;> rfl

end Sys2Proof.Machine

namespace Sys2Proof.Proofs

open Sys2Proof.Machine

/-- Settles O21: the bus write to each REG address is the write of its register. -/
theorem writeStoresRegister : Obligations.WriteStoresRegister := by
  intro s d
  refine ⟨exec_busWr_reg (r := .status) (by decide) d s, exec_busWr_reg (r := .offset) (by decide) d s,
    exec_busWr_reg (r := .length) (by decide) d s, exec_busWr_reg (r := .expect) (by decide) d s,
    exec_busWr_reg (r := .crcResult) (by decide) d s, exec_busWr_reg (r := .fltResult) (by decide) d s, ?_,
    exec_busWr_reg (r := .bufCap) (by decide) d s⟩
  rw [← clampSize_eq]
  exact exec_busWr_reg (r := .bufSize) (by decide) d s

/-- Settles O22: the bus write to a buffer address is the store of one byte. -/
theorem writeStoresBufferByte : Obligations.WriteStoresBufferByte := by
  intro s a d hlo hhi
  have stored := State.busWrite_buf (s := s) (a := a) (i := a.toNat - 0x8000) (by omega) (by omega) d
  exact ⟨_, congrArg Host.Outcome.next stored, s.bufByte_storeByte_same _ _,
    fun _ hj => s.bufByte_storeByte_other _ hj, rfl⟩

/-- Settles O17: a read returns the register or byte at its address, and only the host's replies change. -/
theorem readValuesWithoutSideEffect : Obligations.ReadValuesWithoutSideEffect := fun s =>
  ⟨s.busRead_reg .cmd, s.busRead_reg .status, s.busRead_reg .offset, s.busRead_reg .length,
    s.busRead_reg .expect, s.busRead_reg .crcResult, s.busRead_reg .fltResult, s.busRead_reg .bufSize,
    s.busRead_reg .bufCap, fun _ _ _ => State.busRead_buf (by omega) (by omega),
    fun _ _ => State.sameBlock_of_exec_busRd⟩

/-- Settles O24: a CMD write latches and then runs the decoded command; reads and other writes touch at most
the location they address. -/
theorem writeToCmdStoresThenRuns : Obligations.WriteToCmdStoresThenRuns := by
  intro s d
  refine ⟨fun hc => exec_busWr_cmd_of_decodeCmd hc s, fun hc => exec_busWr_cmd_of_decodeCmd hc s,
    fun _ hc => exec_busWr_cmd_of_decodeCmd hc s, fun hc => exec_busWr_cmd_of_decodeCmd hc s,
    fun t _ => t.status.word_busy, fun _ _ => State.sameBlock_of_exec_busRd, fun a t ha ht => ?_⟩
  obtain rfl : s.busWrite a d = t := Host.Outcome.next.inj ht
  exact ⟨fun _ hr => s.busWrite_readReg_of_ne ha hr d, fun _ hj => s.busWrite_bufByte_of_ne hj d⟩

end Sys2Proof.Proofs

/-! PROOFS. The CRC generator, and the two CRC commands over a valid and an invalid window (41_crc16 R81..R83,
R86, R87). -/

namespace Sys2Proof.Machine

/-! The bit step (R81). -/

/-- The bits of the polynomial 0xA001 (R81). -/
theorem getLsbD_A001 {i : Nat} (hi : i < 16) :
    (0xA001#16).getLsbD i = decide (i = 0 ∨ i = 13 ∨ i = 15) := by
  revert i
  decide

/-- A logical right shift by one brings down the bit above, and 0 into bit 15 (R81). -/
theorem getLsbD_ushiftRight_one (c : Crc) {i : Nat} (hi : i < 16) :
    (c >>> 1).getLsbD i = (decide (i < 15) && c.getLsbD (i + 1)) := by
  rw [BitVec.getLsbD_ushiftRight, Nat.add_comm]
  by_cases h15 : i < 15
  · simp [h15]
  · simp [h15, BitVec.getLsbD_of_ge c (i + 1) (by omega)]

/-- A bit step shifts right by one and XORs in the polynomial times the tested bit (R81). -/
theorem getLsbD_crcBit (c : Crc) (i : Nat) :
    (crcBit c).getLsbD i = ((c >>> 1).getLsbD i ^^ (c.getLsbD 0 && (0xA001#16).getLsbD i)) := by
  unfold crcBit
  cases c.getLsbD 0 <;> simp

/-! The byte step (R82). -/

/-- XOR with a zero-extended byte changes the low byte only (R82). -/
theorem xor_setWidth_byte (c : Crc) (b : Byte) :
    c ^^^ b.setWidth 16 = c.extractLsb' 8 8 ++ (c.extractLsb' 0 8 ^^^ b) := by
  apply BitVec.eq_of_getLsbD_eq
  intro i hi
  rw [BitVec.getLsbD_append]
  by_cases low : i < 8
  · simp [low, hi]
  · simp [low, hi, show 8 + (i - 8) = i by omega, show i - 8 < 8 by omega, BitVec.getLsbD_of_ge b i (by omega)]

/-! The CRC commands over a window (R86, R87). -/

/-- Over a valid window a CRC command stores its CRC, zero-extended, and MATCH as `f` says (R86, R87). -/
theorem State.crcRun_latchCmd_of_window {s : State} (d : Word) (f : Crc → Bool)
    (h : s.offset.toNat + s.length.toNat ≤ s.bufSize.toNat) :
    (s.latchCmd d).crcRun f =
      { s with
        cmd := d
        crcResult := (crc16 s.crcWindow).setWidth 32
        status := ⟨f (crc16 s.crcWindow), .none, cmdOp d⟩ } :=
  if_pos ((s.windowOk_iff _ _).mpr h)

/-- Over an invalid window a CRC command ends with OUT_OF_RANGE and stores no result (R46, R111). -/
theorem State.crcRun_latchCmd_of_not_window {s : State} (d : Word) (f : Crc → Bool)
    (h : s.bufSize.toNat < s.offset.toNat + s.length.toNat) :
    (s.latchCmd d).crcRun f = { s with cmd := d, status := ⟨false, .outOfRange, cmdOp d⟩ } :=
  if_neg (Bool.eq_false_iff.mp ((s.windowOk_eq_false_iff _ _).mpr h))

theorem exec_crcCalc_eq_crcRun (s : State) :
    exec .crcCalc s = .next ((s.latchCmd 0x00000001#32).crcRun fun _ => false) := rfl

/-- CRC.VERIFY compares the 16-bit CRC with EXPECT[15:0] (R87). -/
theorem exec_crcVerify_eq_crcRun (s : State) :
    exec .crcVerify s =
      .next ((s.latchCmd 0x00000002#32).crcRun fun c => decide (c = s.expect.extractLsb' 0 16)) := by
  simp only [← matchFlag_eq]
  rfl

end Sys2Proof.Machine

namespace Sys2Proof.Proofs

open Sys2Proof.Machine

/-- Settles O32: the shift gives the bit above, and the XOR the bits of 0xA001. -/
theorem bitStepBitByBit : Obligations.BitStepBitByBit := by
  intro c i hi
  rw [getLsbD_crcBit, getLsbD_ushiftRight_one c hi, getLsbD_A001 hi]

/-- Settles O33: the XOR of the zero-extended byte keeps the high byte, and `crcBits 8` is eight bit steps. -/
theorem byteStepKeepsTheHighByte : Obligations.ByteStepKeepsTheHighByte := fun c b =>
  congrArg (crcBits 8) (xor_setWidth_byte c b)

/-- Settles O39: a CRC run whose MATCH is the comparison with EXPECT. -/
theorem crcVerifyResult : Obligations.CrcVerifyResult := by
  refine ⟨rfl, fun s => ⟨fun hw => ?_, fun hw => ?_⟩⟩
  · rw [exec_crcVerify_eq_crcRun, State.crcRun_latchCmd_of_window _ _ hw]
    rfl
  · rw [exec_crcVerify_eq_crcRun, State.crcRun_latchCmd_of_not_window _ _ hw]
    rfl

/-- Settles O34: the fold over a message and one more byte ends with that byte's step. -/
theorem messageCrcFoldsBytes : Obligations.MessageCrcFoldsBytes :=
  ⟨rfl, fun _ _ => List.foldl_append .., by decide +kernel⟩

/-- Settles O38: a CRC run whose MATCH is always 0. -/
theorem crcCalcResult : Obligations.CrcCalcResult := by
  refine ⟨rfl, fun s => ⟨fun hw => ?_, fun hw => ?_⟩⟩
  · rw [exec_crcCalc_eq_crcRun, State.crcRun_latchCmd_of_window _ _ hw]
    rfl
  · rw [exec_crcCalc_eq_crcRun, State.crcRun_latchCmd_of_not_window _ _ hw]
    rfl

end Sys2Proof.Proofs

/-! PROOFS. FLT.DEC at each width, and the bytes of its result (42_float_codec R95, R96, R99). -/

namespace Sys2Proof.Machine

/-! The staging area (R95). -/

/-- `MemRead(off, n)` gives byte `off + k` at place `k`, and nothing past its length (R47). -/
theorem State.memRead_getD (s : State) (off n k : Nat) (d : Byte) :
    (s.memRead off n).getD k d = if k < n then s.bufByte (off + k) else d := by
  by_cases hk : k < n <;> simp [State.memRead, hk]

/-- Byte `k` of the staged word, from the most significant, is the staged byte `k` (R95). -/
theorem stagedWord_extractLsb' (bs : List Byte) {k : Nat} (hk : k < 4) :
    (stagedWord bs).extractLsb' (8 * (3 - k)) 8 = bs.getD k 0#8 := by
  unfold stagedWord
  match k, hk with
  | 0, _ | 1, _ | 2, _ | 3, _ =>
    simp (disch := decide) only [BitVec.extractLsb'_append_eq_of_le, BitVec.extractLsb'_append_eq_of_add_le]
    exact BitVec.extractLsb'_eq_self

/-! FLT.DEC over a valid window, over an invalid one, and at an illegal width (R99). -/

/-- FLT.DEC runs its body in the state where its word and that word's OP are stored (R99, R70). -/
theorem exec_fltDec_eq_fltDec (w : BitVec 4) (s : State) :
    exec (.fltDec w) s = .next ((s.latchCmd (commandWord w 0x3#4)).fltDec w) := rfl

/-- The word FLT.DEC writes to CMD, by value (R99). -/
theorem commandWord_fltDec_eq_ofNat (w : BitVec 4) :
    commandWord w 0x3#4 = BitVec.ofNat 32 (3 + 16 * w.toNat) :=
  congrArg Request.data (encode_fltDec w)

section FltDec

variable {s : State} {w : BitVec 4}

/-- At a legal width with a valid window FLT.DEC stores the staged bytes and no error (R99). -/
theorem State.fltDec_latchCmd_of_window (d : Word) (hw : w = 2#4 ∨ w = 4#4)
    (h : s.offset.toNat + w.toNat ≤ s.bufSize.toNat) :
    (s.latchCmd d).fltDec w =
      { s with cmd := d, fltResult := stagedWord (s.fltWindow w), status := ⟨false, .none, cmdOp d⟩ } :=
  (if_pos ((legalWidth_iff w).mpr hw)).trans (if_pos ((s.windowOk_iff _ _).mpr h))

/-- At a legal width with an invalid window FLT.DEC ends with OUT_OF_RANGE and stores no result (R46, R111). -/
theorem State.fltDec_latchCmd_of_not_window (d : Word) (hw : w = 2#4 ∨ w = 4#4)
    (h : s.bufSize.toNat < s.offset.toNat + w.toNat) :
    (s.latchCmd d).fltDec w = { s with cmd := d, status := ⟨false, .outOfRange, cmdOp d⟩ } :=
  (if_pos ((legalWidth_iff w).mpr hw)).trans
    (if_neg (Bool.eq_false_iff.mp ((s.windowOk_eq_false_iff _ _).mpr h)))

/-- At any other width FLT.DEC ends with INVALID_WIDTH, whatever the window (R108, R112). -/
theorem State.fltDec_latchCmd_of_illegal_width (d : Word) (hw : ¬ (w = 2#4 ∨ w = 4#4)) :
    (s.latchCmd d).fltDec w = { s with cmd := d, status := ⟨false, .invalidWidth, cmdOp d⟩ } :=
  if_neg (mt (legalWidth_iff w).mp hw)

end FltDec

end Sys2Proof.Machine

namespace Sys2Proof.Proofs

open Sys2Proof.Machine

/-- Settles O45: the width is checked first, then the window, and only then are the staged bytes stored. -/
theorem fltDecResult : Obligations.FltDecResult := by
  intro s w
  have op : cmdOp (commandWord w 0x3#4) = 0x3#4 := cmdOp_commandWord w 0x3#4
  rw [exec_fltDec_eq_fltDec, ← commandWord_fltDec_eq_ofNat]
  refine ⟨rfl, fun h2 h4 => ?_, fun h2 ok => ?_, fun h4 ok => ?_, fun hw bad => ?_⟩
  · rw [State.fltDec_latchCmd_of_illegal_width _ (not_or.mpr ⟨h2, h4⟩), op]
  · subst h2
    rw [State.fltDec_latchCmd_of_window _ (.inl rfl) ok]
    rfl
  · subst h4
    rw [State.fltDec_latchCmd_of_window _ (.inr rfl) ok]
    rfl
  · rw [State.fltDec_latchCmd_of_not_window _ hw bad, op]

/-- Settles O46: byte `k` of the staged word is byte `k` of the window, or the zero fill past its end. -/
theorem floatBytesAreBigEndian : Obligations.FloatBytesAreBigEndian := by
  intro s t w hw ok ht k hk
  rw [exec_fltDec_eq_fltDec, State.fltDec_latchCmd_of_window _ hw ok] at ht
  cases ht
  rw [stagedWord_extractLsb' _ hk, State.fltWindow, State.memRead_getD]

end Sys2Proof.Proofs

/-! PROOFS. The errors of a command: which one it ends with, and what it leaves unchanged (60_exceptions
R107..R112). -/

namespace Sys2Proof

/-- A word is no legal command when RSVD is not 0, OP names no command, or a CRC command has a WIDTH (R57,
R107). -/
theorem decodeCmd_eq_illegal_iff_fields (d : Word) :
    decodeCmd d = .illegal ↔
      cmdRsvd d ≠ 0#24 ∨ (cmdOp d ≠ 1#4 ∧ cmdOp d ≠ 2#4 ∧ cmdOp d ≠ 3#4) ∨
        ((cmdOp d = 1#4 ∨ cmdOp d = 2#4) ∧ cmdWidth d ≠ 0#4) := by
  unfold decodeCmd
  by_cases hr : cmdRsvd d = 0#24
  · by_cases h1 : cmdOp d = 1#4
    · simp [hr, h1]
    · by_cases h2 : cmdOp d = 2#4
      · simp [hr, h2]
      · simp [hr, h1, h2]
  · simp [hr]

end Sys2Proof

namespace Sys2Proof.Machine

/-! What a command with an error leaves (R111). -/

/-- A raised error in the state where CMD and LAST_OP are stored is all that the command leaves (R111). -/
theorem State.raise_latchCmd (e : ErrCode) (d : Word) (s : State) :
    (s.latchCmd d).raise e = { s with cmd := d, status := ⟨false, e, cmdOp d⟩ } := rfl

/-- A CMD write that ends with an error is the raise of that error, in the state where CMD and LAST_OP are
stored (R111). -/
theorem State.writeCmd_eq_raise {d : Word} {s : State} (h : (s.writeCmd d).status.err ≠ .none) :
    s.writeCmd d = (s.latchCmd d).raise (s.writeCmd d).status.err := by
  rcases s.writeCmd_cases d with ⟨c, m, hd⟩ | ⟨w, hd⟩ | ⟨e, -, hd⟩
  · exact absurd (congrArg (fun t => t.status.err) hd) h
  · exact absurd (congrArg (fun t => t.status.err) hd) h
  · rw [hd]
    rfl

/-! The error of each command's body (R108, R109, R112). -/

theorem State.crcWindowOk_eq_false_iff (s : State) :
    s.crcWindowOk = false ↔ s.bufSize.toNat < s.offset.toNat + s.length.toNat := s.windowOk_eq_false_iff _ _

theorem State.fltWindowOk_eq_false_iff (s : State) (w : BitVec 4) :
    s.fltWindowOk w = false ↔ s.bufSize.toNat < s.offset.toNat + w.toNat := s.windowOk_eq_false_iff _ _

theorem legalWidth_eq_false_iff (w : BitVec 4) : legalWidth w = false ↔ w ≠ 2#4 ∧ w ≠ 4#4 := by
  rw [← Bool.not_eq_true, legalWidth_iff, not_or]

/-- A CRC command reports OUT_OF_RANGE over an invalid window and no error over a valid one (R109). -/
theorem State.crcRun_err (f : Crc → Bool) (s : State) :
    (s.crcRun f).status.err =
      if s.bufSize.toNat < s.offset.toNat + s.length.toNat then .outOfRange else .none := by
  rw [State.crcRun]
  simp only [← State.crcWindowOk_eq_false_iff]
  cases s.crcWindowOk
  · simp
  · simp

/-- FLT.DEC reports INVALID_WIDTH at an illegal width, whatever the window, and else the window's error
(R108, R109, R112). -/
theorem State.fltDec_err (w : BitVec 4) (s : State) :
    (s.fltDec w).status.err =
      if w ≠ 2#4 ∧ w ≠ 4#4 then .invalidWidth
      else if s.bufSize.toNat < s.offset.toNat + w.toNat then .outOfRange else .none := by
  simp only [← legalWidth_eq_false_iff, ← State.fltWindowOk_eq_false_iff]
  rcases s.fltDec_cases w with ⟨hw, ok, h⟩ | ⟨hw, bad, h⟩ | ⟨hw, h⟩
  · simp [h, hw, ok]
  · simp [h, hw, bad]
  · simp [h, hw]

end Sys2Proof.Machine

namespace Sys2Proof.Proofs

open Sys2Proof.Machine

/-- Settles O26: such a word decodes as illegal, so the write raises ILLEGAL_CMD and does nothing else. -/
theorem illegalCommandWordIsReported : Obligations.IllegalCommandWordIsReported := by
  intro s d h
  exact exec_busWr_cmd_of_decodeCmd ((decodeCmd_eq_illegal_iff_fields d).mpr h) s

/-- Settles O40: over a valid window CRC.VERIFY reports no error, and MATCH is the comparison that fails. -/
theorem mismatchIsNoError : Obligations.MismatchIsNoError := by
  intro s hw hne
  obtain ⟨over_window, -⟩ := crcVerifyResult.2 s
  exact ⟨_, over_window hw, rfl, decide_eq_false hne⟩

/-- Settles O51: each command's body reports its own checks in their order; storing CMD changes no check. -/
theorem errorPriority : Obligations.ErrorPriority := by
  intro s d
  refine ⟨_, exec_busWr_cmd_of_decodeCmd rfl s, ?_⟩
  cases decodeCmd d with
  | crcCalc => exact State.crcRun_err (fun _ => false) (s.latchCmd d)
  | crcVerify => exact State.crcRun_err (matchFlag · s.expect) (s.latchCmd d)
  | fltDec w => exact State.fltDec_err w (s.latchCmd d)
  | illegal => rfl

/-- Settles O52: only a raise leaves an error, and it writes ERR and MATCH alone. -/
theorem errorLeavesEverythingElse : Obligations.ErrorLeavesEverythingElse := by
  intro s t d ht herr
  obtain rfl : s.writeCmd d = t := Host.Outcome.next.inj ht
  exact (State.writeCmd_eq_raise herr).trans (State.raise_latchCmd _ d s)

end Sys2Proof.Proofs

/-! PROOFS. The registers after reset (70_reset R121). -/

namespace Sys2Proof.Machine

/-- STATUS reads 0 while no command has run: no MATCH, ERR = NONE, LAST_OP = 0 (R20, R121). -/
theorem Status.word_of_no_command : (⟨false, .none, 0#4⟩ : Status).word = 0#32 := by decide

/-- After reset BUF_CAP reads the parameter and every other register reads 0 (R121). -/
theorem State.resetWith_readReg (cap : Word) (r : Reg) :
    (State.resetWith cap).readReg r = if r = .bufCap then cap else 0#32 := by
  cases r with
  | status => exact Status.word_of_no_command
  | cmd | offset | length | expect | crcResult | fltResult | bufSize | bufCap => rfl

end Sys2Proof.Machine

namespace Sys2Proof.Proofs

open Sys2Proof.Machine

/-- Settles O13: the registers are those of the reset state, and 0 names no command, so writing it to CMD raises
ILLEGAL_CMD with LAST_OP = 0, over a CMD that held 0 already. -/
theorem powerOnRegisters : Obligations.PowerOnRegisters := by
  intro cap
  have zero_names_no_command : decodeCmd 0#32 = .illegal := by decide
  refine ⟨fun r hr => ?_, ?_, ?_⟩
  · rw [State.resetWith_readReg, if_neg hr]
  · rw [State.resetWith_readReg, if_pos rfl]
  · exact exec_busWr_cmd_of_decodeCmd zero_names_no_command (State.resetWith cap)

end Sys2Proof.Proofs

/-! PROOFS. Decoder and encoder undo each other, and both follow the opcode table (30_encoding R53, R57, R65). -/

namespace Sys2Proof

/-! The request decoder, by the fields of the request word (R53). -/

theorem decode_of_reqZ_ne {r : Request} (hz : reqZ r.word ≠ 0#15) :
    decode r = .rejected (.requestBits (reqWrite r.word)) := if_pos hz

theorem decode_write {r : Request} (hz : reqZ r.word = 0#15) (hw : reqWrite r.word = true) :
    decode r = .instr (decodeWrite (reqAddr r.word) r.data) := by
  simp only [decode, hz, hw, ne_eq, not_true, if_false, if_true]

theorem decode_read {r : Request} (hz : reqZ r.word = 0#15) (hw : reqWrite r.word = false) :
    decode r = .instr (.busRd (reqAddr r.word)) := by
  simp only [decode, hz, hw, ne_eq, not_true, if_false, Bool.false_eq_true]

/-- A decoded request has Z = 0, and it is a write or a read of its address. -/
theorem decode_instr_cases {r : Request} {i : Instr} (h : decode r = .instr i) :
    reqZ r.word = 0#15 ∧
    ((reqWrite r.word = true ∧ i = decodeWrite (reqAddr r.word) r.data) ∨
      (reqWrite r.word = false ∧ i = .busRd (reqAddr r.word))) := by
  by_cases hz : reqZ r.word = 0#15
  · refine ⟨hz, ?_⟩
    cases hw : reqWrite r.word
    · exact .inr ⟨rfl, (Decoded.instr.inj ((decode_read hz hw).symm.trans h)).symm⟩
    · exact .inl ⟨rfl, (Decoded.instr.inj ((decode_write hz hw).symm.trans h)).symm⟩
  · cases (decode_of_reqZ_ne hz).symm.trans h

/-! The name of a write (R64, log entry 9). -/

theorem Instr.busWr_wellFormed_iff (a : BusAddr) (d : Word) :
    (Instr.busWr a d).wellFormed = true ↔ (a = 0x0000#16 → decodeCmd d = .illegal) := by
  rw [Instr.wellFormed, Bool.not_eq_true', ← Bool.not_eq_true, Bool.and_eq_true, beq_iff_eq,
    isCommandWord_iff, not_and, ne_eq, Classical.not_not]

theorem decodeWrite_of_wellFormed {a : BusAddr} {d : Word} (h : (Instr.busWr a d).wellFormed = true) :
    decodeWrite a d = .busWr a d := by
  rw [Instr.busWr_wellFormed_iff] at h
  by_cases ha : a = 0x0000#16
  · simp only [decodeWrite, ha, h ha, if_true]
  · exact if_neg ha

/-- A write is named well, and the name encodes to it. -/
theorem decodeWrite_spec (a : BusAddr) (d : Word) :
    (decodeWrite a d).wellFormed = true ∧ encode (decodeWrite a d) = ⟨requestWord true a, d⟩ := by
  by_cases hwf : (Instr.busWr a d).wellFormed = true
  · rw [decodeWrite_of_wellFormed hwf]
    exact ⟨hwf, rfl⟩
  · rw [Instr.busWr_wellFormed_iff, Classical.not_imp] at hwf
    obtain ⟨rfl, legal⟩ := hwf
    rcases decodeCmd_cases d with ⟨hd, rfl⟩ | ⟨hd, rfl⟩ | ⟨w, hd, rfl⟩ | hd
    · exact ⟨rfl, rfl⟩
    · exact ⟨rfl, rfl⟩
    · simp only [decodeWrite, hd, if_true]
      exact ⟨rfl, rfl⟩
    · exact absurd hd legal

/-! The masks of the opcode table (R65). -/

/-- The mask of the two BUS rows keeps W and Z and clears ADDR. -/
theorem getLsbD_and_busMask (r : Word) (i : Nat) :
    (r &&& 0xFFFF0000#32).getLsbD i = (decide (16 ≤ i) && r.getLsbD i) := by
  have mask : ∀ i, i < 32 → (0xFFFF0000#32).getLsbD i = decide (16 ≤ i) := by decide
  rw [BitVec.getLsbD_and, Bool.and_comm]
  by_cases hi : i < 32
  · rw [mask i hi]
  · simp [BitVec.getLsbD_of_ge r i (by omega)]

/-- A request matches a BUS row when Z is 0 and W is the row's. -/
theorem and_busMask_eq_iff (r : Word) (write : Bool) :
    r &&& 0xFFFF0000#32 = requestWord write 0x0000#16 ↔ reqZ r = 0#15 ∧ reqWrite r = write := by
  constructor
  · intro h
    have keeps_z : reqZ (r &&& 0xFFFF0000#32) = reqZ r := by
      apply BitVec.eq_of_getLsbD_eq
      intro i hi
      simp only [reqZ, BitVec.getLsbD_extractLsb', getLsbD_and_busMask]
      simp
    have keeps_w : reqWrite (r &&& 0xFFFF0000#32) = reqWrite r := by
      simp only [reqWrite, getLsbD_and_busMask]
      simp
    rw [← keeps_z, ← keeps_w, h]
    exact ⟨reqZ_requestWord .., reqWrite_requestWord ..⟩
  · rintro ⟨hz, rfl⟩
    apply BitVec.eq_of_getLsbD_eq
    intro i hi
    have word := congrArg (·.getLsbD i) (requestWord_of_fields r hz)
    simp only [getLsbD_requestWord] at word
    rw [getLsbD_and_busMask, ← word, getLsbD_requestWord]
    by_cases low : i < 16
    · simp [show ¬ 16 ≤ i by omega, show i ≠ 31 by omega]
    · simp [show 16 ≤ i by omega]

/-- The command decoder as the three CMD rows, the words of CRC.CALC and CRC.VERIFY compared whole. -/
theorem decodeCmd_eq_table (v : Word) : decodeCmd v =
    if v = 0x00000001#32 then .crcCalc
    else if v = 0x00000002#32 then .crcVerify
    else if v &&& 0xFFFFFF0F#32 = 0x00000003#32 then .fltDec (cmdWidth v)
    else .illegal := by
  rcases decodeCmd_cases v with ⟨hd, rfl⟩ | ⟨hd, rfl⟩ | ⟨w, hd, rfl⟩ | hd
  · decide
  · decide
  · revert w
    decide
  · have none_matches : ¬ isCommandWord v = true := fun h => (isCommandWord_iff v).mp h hd
    simp only [isCommandWord, Bool.or_eq_true, beq_iff_eq, not_or] at none_matches
    obtain ⟨⟨not_calc, not_verify⟩, not_flt⟩ := none_matches
    rw [if_neg not_calc, if_neg not_verify, if_neg not_flt, hd]

end Sys2Proof

namespace Sys2Proof.Proofs

open Sys2Proof.Machine

/-- Settles O1: a command's word decodes to its command, and a well-formed write is its own name. -/
theorem decodeInvertsEncode : Obligations.DecodeInvertsEncode := by
  intro i hwf
  cases i with
  | busWr a d =>
    rw [decode_write (by simp [encode]) (by simp [encode])]
    simp [encode, decodeWrite_of_wellFormed hwf]
  | busRd a =>
    rw [decode_read (by simp [encode]) (by simp [encode])]
    simp [encode]
  | crcCalc => decide
  | crcVerify => decide
  | fltDec w =>
    rw [decode_write (by simp [encode]) (by simp [encode])]
    simp [encode, decodeWrite]

/-- Settles O2: the request word is put together from its fields again, and a write's name encodes to it. -/
theorem encodeInvertsDecode : Obligations.EncodeInvertsDecode := by
  intro r i h
  obtain ⟨hz, ⟨hw, rfl⟩ | ⟨hw, rfl⟩⟩ := decode_instr_cases h
  · obtain ⟨wf, enc⟩ := decodeWrite_spec (reqAddr r.word) r.data
    refine ⟨wf, ?_, fun _ => by rw [enc]⟩
    rw [enc, ← hw]
    exact requestWord_of_fields r.word hz
  · refine ⟨rfl, ?_, fun write => absurd (hw.symm.trans write) Bool.false_ne_true⟩
    rw [← requestWord_of_fields r.word hz, hw]
    simp [encode]

/-- Settles O4: a word is a command's own word exactly where its row's mask and match hold. -/
theorem commandDecoderFollowsTheTableRows : Obligations.CommandDecoderFollowsTheTableRows := by
  intro v
  have whole : v &&& 0xFFFFFFFF#32 = v := BitVec.and_allOnes
  rw [whole]
  exact decodeCmd_eq_table v

/-- Settles O5: the two BUS rows are Z = 0 with W = 0 and with W = 1. -/
theorem requestDecoderFollowsTheTableRows : Obligations.RequestDecoderFollowsTheTableRows := by
  intro r
  have read_row := and_busMask_eq_iff r.word false
  have write_row := and_busMask_eq_iff r.word true
  refine ⟨fun h => ?_, fun h => ?_, fun not_read not_write => ?_⟩
  · obtain ⟨hz, hw⟩ := read_row.mp h
    exact decode_read hz hw
  · obtain ⟨hz, hw⟩ := write_row.mp h
    obtain ⟨-, enc⟩ := decodeWrite_spec (reqAddr r.word) r.data
    refine ⟨_, decode_write hz hw, ?_⟩
    rw [enc, ← hw, requestWord_of_fields r.word hz]
  · refine decode_of_reqZ_ne fun hz => ?_
    cases hw : reqWrite r.word
    · exact not_read (read_row.mpr ⟨hz, hw⟩)
    · exact not_write (write_row.mpr ⟨hz, hw⟩)

/-- Settles O6: the five words by evaluation of the decoder. -/
theorem sampleTableWordsDecode : Obligations.SampleTableWordsDecode := by
  unfold Obligations.SampleTableWordsDecode
  decide

/-- Settles O60: the expansion of a load recurses on its bytes. -/
theorem loadOfNoByteIsNoTransaction : Obligations.LoadOfNoByteIsNoTransaction := fun _ => rfl

end Sys2Proof.Proofs

/-! PROOFS. The step, reset, and the invariant that every step keeps (10_state R20, R26, 20_memory R48, R51, 40_host_bus
R75, 70_reset R120..R123). -/

namespace Sys2Proof.Machine

/-! A step, by the next event (R48, R51). -/

theorem State.admits_iff (s : State) (agent : Nat) :
    s.admits agent = true ↔ s.owner = none ∨ s.owner = some agent := by
  cases ho : s.owner <;> simp [State.admits, ho]

theorem step_of_no_event {s : State} (hp : s.pending = []) : step s = .next s := by
  simp only [step, hp]

theorem step_of_reset {s : State} {rest : List HostEvent} (hp : s.pending = .reset :: rest) :
    step s = .next { s with pending := rest }.platformReset := by
  simp only [step, hp]

section Request

variable {s : State} {agent : Nat} {r : Request} {rest : List HostEvent}
  (hp : s.pending = .request agent r :: rest)

include hp

theorem step_of_instr (ha : s.owner = none ∨ s.owner = some agent) {i : Instr} (hd : decode r = .instr i) :
    step s = exec i (s.accept agent rest) := by
  simp only [step, hp, (s.admits_iff agent).mpr ha, hd, if_true]

theorem step_of_rejected (ha : s.owner = none ∨ s.owner = some agent) {e : DecodeError}
    (hd : decode r = .rejected e) : step s = execRejected e (s.accept agent rest) := by
  simp only [step, hp, (s.admits_iff agent).mpr ha, hd, if_true]

theorem step_of_not_admitted (ha : ¬ (s.owner = none ∨ s.owner = some agent)) :
    step s = .refused .secondHost := by
  simp only [step, hp, mt (s.admits_iff agent).mp ha, if_false, Bool.false_eq_true]

end Request

/-- Every instruction goes on (R111, R116). -/
theorem exec_wentOn (i : Instr) (s : State) : WentOn (exec i s) := by
  cases i <;> exact ⟨_, rfl⟩

/-- Every request outside the decode goes on (R75). -/
theorem execRejected_wentOn (e : DecodeError) (s : State) : WentOn (execRejected e s) := by
  obtain ⟨write⟩ := e
  cases write <;> exact ⟨_, rfl⟩

/-! Reserved addresses (R28, R75). -/

/-- An address from 0x0024 up to the buffer space is reserved. -/
theorem classify_of_gap {cap : Nat} {a : BusAddr} (lo : 0x0024 ≤ a.toNat) (hi : a.toNat < 0x8000) :
    classify cap a = .rsvd := by
  rcases classify_cases cap a with ⟨-, rfl⟩ | ⟨r, -, -, rfl⟩ | ⟨i, -, -, ha⟩ | h
  · exact absurd lo (by decide)
  · cases r <;> exact absurd lo (by decide)
  · omega
  · exact h

/-- An address in the register space that is no multiple of 4 is reserved. -/
theorem classify_of_misaligned {cap : Nat} {a : BusAddr} (hi : a.toNat < 0x8000) (mis : a.toNat % 4 ≠ 0) :
    classify cap a = .rsvd := by
  rcases classify_cases cap a with ⟨-, rfl⟩ | ⟨r, -, -, rfl⟩ | ⟨i, -, -, ha⟩ | h
  · exact absurd rfl mis
  · cases r <;> exact absurd rfl mis
  · omega
  · exact h

/-- An address past the buffer is reserved. -/
theorem classify_of_past_buffer {cap : Nat} {a : BusAddr} (h : 0x8000 + cap ≤ a.toNat) :
    classify cap a = .rsvd := by
  simp only [classify, show 0x8000 ≤ a.toNat by omega, show ¬ a.toNat - 0x8000 < cap by omega, if_true, if_false]

section Reserved

variable {s : State} {a : BusAddr} (h : s.classOf a = .rsvd)

include h

/-- A write to a reserved address is named BUS.WR, since the address is not CMD's. -/
theorem decodeWrite_of_rsvd (d : Word) : decodeWrite a d = .busWr a d := by
  refine if_neg ?_
  rintro rfl
  cases h

theorem exec_busWr_of_rsvd (d : Word) : exec (.busWr a d) s = .next s := by
  simp only [exec, execBusWr, State.busWrite, h]

theorem exec_busRd_of_rsvd : exec (.busRd a) s = .next (s.reply 0#32) := by
  simp only [exec, execBusRd, State.busRead, h]

end Reserved

/-! The invariant under each operation. -/

/-- The body of a command leaves a STATUS that its word explains (R70, R106..R109). -/
theorem State.runCommand_statusExplained {s : State} {c : Command} (hc : decodeCmd s.cmd = c)
    (hop : s.status.lastOp = cmdOp s.cmd) : (s.runCommand c).statusExplained := by
  cases c with
  | crcCalc =>
    rcases s.crcCalc_cases with ⟨-, h⟩ | ⟨-, h⟩ <;>
      simp [State.runCommand, h, State.statusExplained, hc, hop, runnable]
  | crcVerify =>
    rcases s.crcVerify_cases with ⟨-, h⟩ | ⟨-, h⟩ <;>
      simp [State.runCommand, h, State.statusExplained, hc, hop, runnable]
  | fltDec w =>
    rcases s.fltDec_cases w with ⟨hw, -, h⟩ | ⟨hw, -, h⟩ | ⟨hw, h⟩ <;>
      simp [State.runCommand, h, State.statusExplained, hc, hop, runnable, hw]
  | illegal => simp [State.runCommand, State.statusExplained, hc, hop]

theorem State.writeCmd_eq_runCommand (d : Word) (s : State) :
    s.writeCmd d = (s.latchCmd d).runCommand (decodeCmd d) := by
  unfold State.writeCmd
  cases decodeCmd d <;> rfl

theorem State.resetWith_inv {cap : Word} (lo : 1 ≤ cap.toNat) (hi : cap.toNat ≤ Config.bufCapMax) :
    (State.resetWith cap).Inv :=
  ⟨⟨lo, hi, Nat.zero_le _⟩, ⟨BitVec.extractLsb'_zero, BitVec.extractLsb'_zero⟩,
    ⟨rfl, fun h => absurd h Bool.false_ne_true, .inl rfl⟩, Memory.reset_wf cap⟩

namespace State.Inv

variable {s : State} (hs : s.Inv)

include hs

theorem platformReset (rest : List HostEvent) : ({ s with pending := rest }.platformReset).Inv := by
  obtain ⟨⟨lo, hi, -⟩, -⟩ := hs
  exact State.resetWith_inv lo hi

theorem writeCmd (d : Word) : (s.writeCmd d).Inv := by
  obtain ⟨sizes, ⟨expect_zero, crc_zero⟩, -, wf⟩ := hs
  obtain ⟨-, -, -, hexpect, hsize, hcap, hbuf, -⟩ := s.writeCmd_keeps d
  refine ⟨?_, ⟨by rw [hexpect, expect_zero], ?_⟩, ?_, by rw [hcap, hbuf]; exact wf⟩
  · rw [State.sizesLegal, hcap, hsize]
    exact sizes
  · rcases s.writeCmd_cases d with ⟨c, m, h⟩ | ⟨w, h⟩ | ⟨e, -, h⟩ <;> rw [h]
    · exact crc_high c
    · exact crc_zero
    · exact crc_zero
  · rw [State.writeCmd_eq_runCommand]
    exact State.runCommand_statusExplained rfl rfl

theorem writeReg (r : Reg) (d : Word) : (s.writeReg r d).Inv := by
  obtain ⟨⟨lo, hi, size⟩, ⟨expect_zero, crc_zero⟩, status, wf⟩ := hs
  cases r with
  | expect => exact ⟨⟨lo, hi, size⟩, ⟨low16_high d, crc_zero⟩, status, wf⟩
  | bufSize => exact ⟨⟨lo, hi, clampSize_le d s.bufCap⟩, ⟨expect_zero, crc_zero⟩, status, wf⟩
  | cmd | status | offset | length | crcResult | fltResult | bufCap =>
    exact ⟨⟨lo, hi, size⟩, ⟨expect_zero, crc_zero⟩, status, wf⟩

theorem storeByte {i : Nat} (hi : i < s.bufCap.toNat) (v : Byte) : (s.storeByte i v).Inv := by
  obtain ⟨sizes, reserved, status, wf⟩ := hs
  exact ⟨sizes, reserved, status, Memory.store_wf v hi wf⟩

theorem busWrite (a : BusAddr) (d : Word) : (s.busWrite a d).Inv := by
  rcases s.busWrite_cases a d with ⟨-, h⟩ | ⟨r, -, -, h⟩ | ⟨i, hi, -, h⟩ | ⟨-, h⟩ <;> rw [h]
  · exact hs.writeCmd d
  · exact hs.writeReg r d
  · exact hs.storeByte hi _
  · exact hs

/-- What the host has read is no part of the invariant. -/
theorem reply (w : Word) : (s.reply w).Inv := hs

/-- What the host will still do, and who owns the port, is no part of the invariant. -/
theorem accept (agent : Nat) (rest : List HostEvent) : (s.accept agent rest).Inv := hs

theorem of_exec {i : Instr} {t : State} (h : exec i s = .next t) : t.Inv := by
  rcases exec_cases h with ⟨a, -, rfl⟩ | ⟨a, d, -, rfl⟩ | ⟨d, -, -, rfl⟩
  · exact hs.reply _
  · exact hs.busWrite a d
  · exact hs.writeCmd d

theorem of_execRejected {e : DecodeError} {t : State} (h : execRejected e s = .next t) : t.Inv := by
  rcases execRejected_cases h with ⟨-, rfl⟩ | ⟨-, rfl⟩
  · exact hs
  · exact hs.reply _

end State.Inv

end Sys2Proof.Machine

namespace Sys2Proof.Proofs

open Sys2Proof.Machine

/-- Settles O15: each thing that a step can do keeps the invariant. -/
theorem everyStepKeepsInvariant : Obligations.EveryStepKeepsInvariant := by
  intro s t hs h
  rcases step_cases h with
    ⟨-, rfl⟩ | ⟨rest, -, rfl⟩ | ⟨agent, r, rest, i, -, -, -, h⟩ | ⟨agent, r, rest, e, -, -, -, h⟩
  · exact hs
  · exact hs.platformReset rest
  · exact (hs.accept agent rest).of_exec h
  · exact (hs.accept agent rest).of_execRejected h

/-- Settles O8: such a request is rejected, or it is a bus transaction at a reserved address. -/
theorem reservedRequestsReadZeroAndIgnoreWrites : Obligations.ReservedRequestsReadZeroAndIgnoreWrites := by
  intro s agent r rest hp ha h
  by_cases hz : reqZ r.word = 0#15
  · have addr_toNat : (reqAddr r.word).toNat = r.word.toNat % 2 ^ 16 := by simp [reqAddr]
    have rsvd : (s.accept agent rest).classOf (reqAddr r.word) = .rsvd := by
      simp only [← addr_toNat] at h
      rcases h with hne | ⟨lo, hi⟩ | past | ⟨hi, mis⟩
      · exact absurd hz hne
      · exact classify_of_gap lo hi
      · exact classify_of_past_buffer past
      · exact classify_of_misaligned hi mis
    refine ⟨fun write => ?_, fun read => ?_⟩
    · rw [step_of_instr hp ha (decode_write hz write), decodeWrite_of_rsvd rsvd, exec_busWr_of_rsvd rsvd]
      rfl
    · rw [step_of_instr hp ha (decode_read hz read), exec_busRd_of_rsvd rsvd]
      rfl
  · rw [step_of_rejected hp ha (decode_of_reqZ_ne hz)]
    refine ⟨fun write => ?_, fun read => ?_⟩
    · rw [show reqWrite r.word = true from write]
      rfl
    · rw [show reqWrite r.word = false from read]
      rfl

/-- Settles O7: the port's owner is admitted. -/
theorem stepRunsDecodedInstruction : Obligations.StepRunsDecodedInstruction :=
  fun _ _ _ _ _ hp ha hd => step_of_instr hp ha hd

/-- Settles O9: a port owned by another host admits no one else. -/
theorem secondHostIsRefused : Obligations.SecondHostIsRefused := by
  intro s agent other r rest hp ho hne
  refine step_of_not_admitted hp ?_
  rw [ho]
  rintro (h | h)
  · cases h
  · exact hne (Option.some.inj h).symm

/-- Settles O10: there is no event to take. -/
theorem blockWaitsForTransactions : Obligations.BlockWaitsForTransactions := fun _ => step_of_no_event

/-- Settles O11: a reset event leaves the registers of a power-on with the same BUF_CAP. -/
theorem resetLoadsEveryRegister : Obligations.ResetLoadsEveryRegister := by
  intro s rest hp
  have zero_names_no_command : decodeCmd 0#32 = .illegal := by decide
  exact ⟨_, step_of_reset hp, rfl, Status.word_of_no_command, rfl, rfl, rfl, rfl, rfl, rfl, rfl, rfl,
    exec_busWr_cmd_of_decodeCmd zero_names_no_command _⟩

/-- Settles O12: after a reset no byte is written, so each reads as the free value. -/
theorem resetDrawsTheBufferAnew : Obligations.ResetDrawsTheBufferAnew := fun _ _ hp =>
  ⟨_, step_of_reset hp, fun _ => rfl⟩

/-- Settles O14: power-on with a legal BUF_CAP, of which the default is one. -/
theorem invariantHoldsAtReset : Obligations.InvariantHoldsAtReset :=
  ⟨State.resetWith_inv (by decide) (by decide), fun _ => State.resetWith_inv⟩

/-- Settles O16: no event, a reset, every instruction and every rejected request go on. -/
theorem everyTransactionOfTheOwnerGoesOn : Obligations.EveryTransactionOfTheOwnerGoesOn := by
  intro s admitted
  rcases hp : s.pending with _ | ⟨_ | _, rest⟩
  · exact ⟨_, step_of_no_event hp⟩
  · rename_i agent r
    have ha := admitted agent r rest hp
    cases hd : decode r with
    | instr i =>
      rw [step_of_instr hp ha hd]
      exact exec_wentOn i _
    | rejected e =>
      rw [step_of_rejected hp ha hd]
      exact execRejected_wentOn e _
  · exact ⟨_, step_of_reset hp⟩

end Sys2Proof.Proofs

/-! PROOFS. The block has no hidden state: what the host can read determines every answer (10_state R15, R32). -/

namespace Sys2Proof.Machine

/-! What the registers' readings determine (R74). -/

/-- Bit 1 of the STATUS word is MATCH (R20). -/
theorem Status.word_matched (st : Status) : st.word.getLsbD 1 = st.matched := by
  simp only [Status.word, BitVec.getLsbD_append]
  cases st.matched <;> rfl

/-- Bits 7:4 of the STATUS word are the code of ERR (R20). -/
theorem Status.word_err (st : Status) : st.word.extractLsb' 4 4 = st.err.code := by
  simp (disch := decide) only [Status.word, BitVec.extractLsb'_append_eq_of_le,
    BitVec.extractLsb'_append_eq_of_add_le]
  exact BitVec.extractLsb'_eq_self

/-- Bits 11:8 of the STATUS word are LAST_OP (R20). -/
theorem Status.word_lastOp (st : Status) : st.word.extractLsb' 8 4 = st.lastOp := by
  simp (disch := decide) only [Status.word, BitVec.extractLsb'_append_eq_of_le,
    BitVec.extractLsb'_append_eq_of_add_le]
  exact BitVec.extractLsb'_eq_self

/-- BUSY and the reserved bits of the STATUS word are 0 (R20). -/
theorem Status.word_reserved (st : Status) {i : Nat} (h : i = 0 ∨ i = 2 ∨ i = 3 ∨ 12 ≤ i) :
    st.word.getLsbD i = false := by
  simp only [Status.word, BitVec.getLsbD_append]
  rcases h with rfl | rfl | rfl | h
  · rfl
  · rfl
  · rfl
  · simp (disch := omega) only [if_neg]
    exact BitVec.getLsbD_zero

theorem ErrCode.code_lt (e : ErrCode) : e.code.toNat < 4 := by
  cases e <;> decide

theorem ErrCode.code_inj {e e' : ErrCode} (h : e.code = e'.code) : e = e' := by
  revert h
  cases e <;> cases e' <;> decide

/-- The STATUS word determines the three fields. -/
theorem Status.word_inj {st st' : Status} (h : st.word = st'.word) : st = st' := by
  have matched := congrArg (·.getLsbD 1) h
  have err := congrArg (·.extractLsb' 4 4) h
  have lastOp := congrArg (·.extractLsb' 8 4) h
  simp only [Status.word_matched, Status.word_err, Status.word_lastOp] at matched err lastOp
  obtain ⟨m, e, l⟩ := st
  obtain ⟨m', e', l'⟩ := st'
  obtain rfl : m = m' := matched
  obtain rfl : e = e' := ErrCode.code_inj err
  obtain rfl : l = l' := lastOp
  rfl

/-- Zero-extending loses nothing. -/
theorem setWidth_injective {n m : Nat} (h : n ≤ m) :
    Function.Injective (BitVec.setWidth m : BitVec n → BitVec m) := by
  intro v w hvw
  have values := congrArg BitVec.toNat hvw
  rwa [BitVec.toNat_setWidth_of_le h, BitVec.toNat_setWidth_of_le h, BitVec.toNat_inj] at values

/-- EXPECT[15:0] is all that a read of EXPECT returns, and all that CRC.VERIFY compares (R23, R87). -/
theorem low16_eq_iff (v w : Word) : low16 v = low16 w ↔ v.extractLsb' 0 16 = w.extractLsb' 0 16 :=
  ⟨fun h => setWidth_injective (by decide) h, congrArg (BitVec.setWidth 32)⟩

/-- Blocks read alike when every register that is stored whole is equal, EXPECT and CRC_RESULT are equal in
bits 15:0, and every byte is equal (R15). -/
theorem State.sameBlock_iff (s s' : State) :
    s.sameBlock s' ↔
      s.cmd = s'.cmd ∧ s.status = s'.status ∧ s.offset = s'.offset ∧ s.length = s'.length ∧
      low16 s.expect = low16 s'.expect ∧ low16 s.crcResult = low16 s'.crcResult ∧
      s.fltResult = s'.fltResult ∧ s.bufSize = s'.bufSize ∧ s.bufCap = s'.bufCap ∧
      ∀ i, s.bufByte i = s'.bufByte i := by
  constructor
  · rintro ⟨regs, bytes⟩
    exact ⟨regs .cmd, Status.word_inj (regs .status), regs .offset, regs .length, regs .expect,
      regs .crcResult, regs .fltResult, regs .bufSize, regs .bufCap, bytes⟩
  · rintro ⟨cmd, status, offset, length, expect, crcResult, fltResult, bufSize, bufCap, bytes⟩
    refine ⟨fun r => ?_, bytes⟩
    cases r with
    | cmd => exact cmd
    | status => exact congrArg Status.word status
    | offset => exact offset
    | length => exact length
    | expect => exact expect
    | crcResult => exact crcResult
    | fltResult => exact fltResult
    | bufSize => exact bufSize
    | bufCap => exact bufCap

namespace State.sameBlock

variable {s s' : State} (h : s.sameBlock s')

include h

theorem classOf (a : BusAddr) : s.classOf a = s'.classOf a := by
  obtain ⟨-, -, -, -, -, -, -, -, cap, -⟩ := (State.sameBlock_iff s s').mp h
  simp only [State.classOf, cap]

theorem memRead (off n : Nat) : s.memRead off n = s'.memRead off n := State.memRead_ext fun k _ => h.2 (off + k)

theorem windowOk (off len : Nat) : s.windowOk off len = s'.windowOk off len := by
  obtain ⟨-, -, -, -, -, -, -, size, -⟩ := (State.sameBlock_iff s s').mp h
  simp only [State.windowOk, size]

theorem busRead (a : BusAddr) : s.busRead a = s'.busRead a := by
  simp only [State.busRead, h.classOf a, h.1, h.2]

/-! Each operation, done to both blocks. -/

theorem reply (w w' : Word) : (s.reply w).sameBlock (s'.reply w') :=
  ⟨fun r => by simp only [State.reply_readReg, h.1], h.2⟩

theorem storeByte (i : Nat) (v : Byte) : (s.storeByte i v).sameBlock (s'.storeByte i v) := by
  refine ⟨fun r => by simp only [State.storeByte_readReg, h.1], fun j => ?_⟩
  by_cases hj : j = i
  · subst hj
    rw [State.bufByte_storeByte_same, State.bufByte_storeByte_same]
  · rw [State.bufByte_storeByte_other _ _ hj, State.bufByte_storeByte_other _ _ hj, h.2]

theorem writeReg (r : Reg) (d : Word) : (s.writeReg r d).sameBlock (s'.writeReg r d) := by
  obtain ⟨cmd, status, offset, length, expect, crcResult, fltResult, size, cap, bytes⟩ :=
    (State.sameBlock_iff s s').mp h
  cases r with
  | cmd | status | crcResult | fltResult | bufCap => exact h
  | offset =>
    exact (State.sameBlock_iff _ _).mpr
      ⟨cmd, status, rfl, length, expect, crcResult, fltResult, size, cap, bytes⟩
  | length =>
    exact (State.sameBlock_iff _ _).mpr
      ⟨cmd, status, offset, rfl, expect, crcResult, fltResult, size, cap, bytes⟩
  | expect =>
    exact (State.sameBlock_iff _ _).mpr
      ⟨cmd, status, offset, length, rfl, crcResult, fltResult, size, cap, bytes⟩
  | bufSize =>
    exact (State.sameBlock_iff _ _).mpr ⟨cmd, status, offset, length, expect, crcResult, fltResult,
      congrArg (clampSize d) cap, cap, bytes⟩

theorem latchCmd (d : Word) : (s.latchCmd d).sameBlock (s'.latchCmd d) := by
  obtain ⟨-, status, rest⟩ := (State.sameBlock_iff s s').mp h
  exact (State.sameBlock_iff _ _).mpr ⟨rfl, by simp only [State.latchCmd_status, status], rest⟩

theorem raise (e : ErrCode) : (s.raise e).sameBlock (s'.raise e) := by
  obtain ⟨cmd, status, rest⟩ := (State.sameBlock_iff s s').mp h
  exact (State.sameBlock_iff _ _).mpr ⟨cmd, congrArg (Status.fail e) status, rest⟩

theorem finishCrc (c : Crc) (m : Bool) : (s.finishCrc c m).sameBlock (s'.finishCrc c m) := by
  obtain ⟨cmd, status, offset, length, expect, -, rest⟩ := (State.sameBlock_iff s s').mp h
  exact (State.sameBlock_iff _ _).mpr
    ⟨cmd, congrArg (Status.succeed m) status, offset, length, expect, rfl, rest⟩

theorem finishFlt (w : Word) : (s.finishFlt w).sameBlock (s'.finishFlt w) := by
  obtain ⟨cmd, status, offset, length, expect, crcResult, -, rest⟩ := (State.sameBlock_iff s s').mp h
  exact (State.sameBlock_iff _ _).mpr
    ⟨cmd, congrArg (Status.succeed false) status, offset, length, expect, crcResult, rfl, rest⟩

/-! A command, run in both blocks. -/

theorem crcRun (f : Crc → Bool) : (s.crcRun f).sameBlock (s'.crcRun f) := by
  obtain ⟨-, -, offset, length, -⟩ := (State.sameBlock_iff s s').mp h
  have ok : s.crcWindowOk = s'.crcWindowOk := by
    rw [State.crcWindowOk, offset, length, h.windowOk]
    rfl
  have window : s.crcWindow = s'.crcWindow := by
    rw [State.crcWindow, offset, length, h.memRead]
    rfl
  simp only [State.crcRun, ok, window]
  split
  · exact h.finishCrc _ _
  · exact h.raise _

theorem fltDec (w : BitVec 4) : (s.fltDec w).sameBlock (s'.fltDec w) := by
  obtain ⟨-, -, offset, -⟩ := (State.sameBlock_iff s s').mp h
  have ok : s.fltWindowOk w = s'.fltWindowOk w := by
    rw [State.fltWindowOk, offset, h.windowOk]
    rfl
  have window : s.fltWindow w = s'.fltWindow w := by
    rw [State.fltWindow, offset, h.memRead]
    rfl
  simp only [State.fltDec, ok, window]
  split
  · split
    · exact h.finishFlt _
    · exact h.raise _
  · exact h.raise _

theorem matchFlag (c : Crc) : Machine.matchFlag c s.expect = Machine.matchFlag c s'.expect := by
  obtain ⟨-, -, -, -, expect, -⟩ := (State.sameBlock_iff s s').mp h
  rw [matchFlag_eq, matchFlag_eq, (low16_eq_iff _ _).mp expect]

theorem writeCmd (d : Word) : (s.writeCmd d).sameBlock (s'.writeCmd d) := by
  have hl := h.latchCmd d
  rw [State.writeCmd_eq_runCommand, State.writeCmd_eq_runCommand]
  cases decodeCmd d with
  | crcCalc => exact hl.crcRun fun _ => false
  | crcVerify =>
    simp only [State.runCommand, State.crcVerify_eq_crcRun, hl.matchFlag]
    exact hl.crcRun _
  | fltDec w => exact hl.fltDec w
  | illegal => exact hl.raise _

theorem busWrite (a : BusAddr) (d : Word) : (s.busWrite a d).sameBlock (s'.busWrite a d) := by
  unfold State.busWrite
  rw [← h.classOf a]
  cases s.classOf a with
  | cmd => exact h.writeCmd d
  | reg r => exact h.writeReg r d
  | buf i => exact h.storeByte i _
  | rsvd => exact h

end State.sameBlock

/-- A write's name has the meaning of the write (R64, log entry 9). -/
theorem exec_decodeWrite (a : BusAddr) (d : Word) (s : State) :
    exec (decodeWrite a d) s = .next (s.busWrite a d) := by
  by_cases ha : a = 0x0000#16
  · subst ha
    rw [decodeWrite, if_pos rfl, show s.busWrite 0x0000#16 d = s.writeCmd d from rfl]
    rcases decodeCmd_cases d with ⟨hd, rfl⟩ | ⟨hd, rfl⟩ | ⟨w, hd, rfl⟩ | hd
    · exact exec_crcCalc s
    · exact exec_crcVerify s
    · rw [hd]
      exact exec_fltDec w s
    · rw [hd]
      exact exec_busWr_cmd d s
  · rw [decodeWrite, if_neg ha]
    rfl

/-! What the host has read. -/

@[simp] theorem State.writeCmd_replies (d : Word) (s : State) : (s.writeCmd d).replies = s.replies := by
  obtain ⟨-, -, -, -, -, -, -, -, -, -, replies⟩ := s.writeCmd_keeps d
  exact replies

@[simp] theorem State.writeReg_replies (r : Reg) (d : Word) (s : State) :
    (s.writeReg r d).replies = s.replies := by
  obtain ⟨-, -, -, -, -, -, -, -, -, replies⟩ := s.writeReg_keeps r d
  exact replies

@[simp] theorem State.busWrite_replies (a : BusAddr) (d : Word) (s : State) :
    (s.busWrite a d).replies = s.replies := by
  rcases s.busWrite_cases a d with ⟨-, h⟩ | ⟨r, -, -, h⟩ | ⟨i, -, -, h⟩ | ⟨-, h⟩ <;> rw [h]
  · exact s.writeCmd_replies d
  · exact s.writeReg_replies r d
  · exact State.storeByte_replies i _ s

end Sys2Proof.Machine

namespace Sys2Proof.Proofs

open Sys2Proof.Machine

/-- Settles O57: a read returns what both blocks read as, and each write does the same to both. -/
theorem noHiddenState : Obligations.NoHiddenState := by
  intro s s' t t' i h replies ht ht'
  rcases exec_cases ht with ⟨a, rfl, rfl⟩ | ⟨a, d, rfl, rfl⟩ | ⟨d, -, hi, rfl⟩
  · obtain rfl : s'.reply (s'.busRead a) = t' := Host.Outcome.next.inj ht'
    rw [h.busRead a]
    exact ⟨h.reply _ _, congrArg (s'.busRead a :: ·) replies⟩
  · obtain rfl : s'.busWrite a d = t' := Host.Outcome.next.inj ht'
    exact ⟨h.busWrite a d, by simpa using replies⟩
  · rw [hi, exec_decodeWrite] at ht'
    obtain rfl : s'.writeCmd d = t' := Host.Outcome.next.inj ht'
    exact ⟨h.writeCmd d, by simpa using replies⟩

/-- Settles O50: each field of the word is read back, and every other bit is 0. -/
theorem statusWordFields : Obligations.StatusWordFields :=
  ⟨rfl, rfl, rfl, rfl, fun st => ⟨st.word_matched, st.word_err, st.word_err ▸ st.err.code_lt, st.word_lastOp,
    fun _ => st.word_reserved⟩⟩

/-- Settles O25: each of the words has its command's name. -/
theorem commandIsTheWriteOfItsWord : Obligations.CommandIsTheWriteOfItsWord := by
  refine fun s => ⟨exec_decodeWrite 0x0000#16 0x00000001#32 s, exec_decodeWrite 0x0000#16 0x00000002#32 s,
    fun w => ?_⟩
  rw [exec_fltDec]
  rfl

end Sys2Proof.Proofs

/-! PROOFS. The frame of a write, and that a write can be repeated (20_memory R44, R48, 40_host_bus R70..R74). -/

namespace Sys2Proof.Machine

/-! Which result registers a command writes (R86, R87, R99). -/

theorem State.crcRun_fltResult (f : Crc → Bool) (s : State) : (s.crcRun f).fltResult = s.fltResult := by
  unfold State.crcRun
  split <;> rfl

theorem State.fltDec_crcResult (w : BitVec 4) (s : State) : (s.fltDec w).crcResult = s.crcResult := by
  rcases s.fltDec_cases w with ⟨-, -, h⟩ | ⟨-, -, h⟩ | ⟨-, h⟩ <;> rw [h] <;> rfl

/-- CRC_RESULT changes only by a CRC command. -/
theorem State.writeCmd_crcResult {d : Word} (hcalc : decodeCmd d ≠ .crcCalc) (hverify : decodeCmd d ≠ .crcVerify)
    (s : State) : (s.writeCmd d).crcResult = s.crcResult := by
  rw [State.writeCmd_eq_runCommand]
  cases hd : decodeCmd d with
  | crcCalc => exact absurd hd hcalc
  | crcVerify => exact absurd hd hverify
  | fltDec w => exact (s.latchCmd d).fltDec_crcResult w
  | illegal => rfl

/-- FLT_RESULT changes only by FLT.DEC. -/
theorem State.writeCmd_fltResult {d : Word} (hflt : ∀ w, decodeCmd d ≠ .fltDec w) (s : State) :
    (s.writeCmd d).fltResult = s.fltResult := by
  rw [State.writeCmd_eq_runCommand]
  cases hd : decodeCmd d with
  | crcCalc => exact (s.latchCmd d).crcRun_fltResult fun _ => false
  | crcVerify => exact (s.latchCmd d).crcRun_fltResult (matchFlag · s.expect)
  | fltDec w => exact absurd hd (hflt w)
  | illegal => rfl

/-! What a bus write leaves unchanged (R70, R71, R72). -/

/-- A write outside CMD runs no command. -/
theorem State.busWrite_of_ne_cmd {a : BusAddr} (ha : a ≠ Reg.cmd.addr) (d : Word) (s : State) :
    (s.busWrite a d).cmd = s.cmd ∧ (s.busWrite a d).status = s.status ∧
    (s.busWrite a d).crcResult = s.crcResult ∧ (s.busWrite a d).fltResult = s.fltResult := by
  rcases s.busWrite_cases a d with ⟨e, -⟩ | ⟨r, -, -, h⟩ | ⟨i, -, -, h⟩ | ⟨-, h⟩
  · exact absurd e ha
  · obtain ⟨hcmd, hstatus, hcrc, hflt, -⟩ := s.writeReg_keeps r d
    rw [h]
    exact ⟨hcmd, hstatus, hcrc, hflt⟩
  · rw [h]
    exact ⟨rfl, rfl, rfl, rfl⟩
  · rw [h]
    exact ⟨rfl, rfl, rfl, rfl⟩

/-- A register write changes OFFSET, LENGTH and EXPECT only where it is theirs. -/
theorem State.writeReg_args (r : Reg) (d : Word) (s : State) :
    (r ≠ .offset → (s.writeReg r d).offset = s.offset) ∧ (r ≠ .length → (s.writeReg r d).length = s.length) ∧
    (r ≠ .expect → (s.writeReg r d).expect = s.expect) := by
  cases r <;> simp [State.writeReg]

/-- OFFSET, LENGTH and EXPECT change only by a write to their own address. -/
theorem State.busWrite_args (a : BusAddr) (d : Word) (s : State) :
    (a ≠ Reg.offset.addr → (s.busWrite a d).offset = s.offset) ∧
    (a ≠ Reg.length.addr → (s.busWrite a d).length = s.length) ∧
    (a ≠ Reg.expect.addr → (s.busWrite a d).expect = s.expect) := by
  rcases s.busWrite_cases a d with ⟨-, h⟩ | ⟨r, -, rfl, h⟩ | ⟨i, -, -, h⟩ | ⟨-, h⟩ <;> rw [h]
  · obtain ⟨-, hoffset, hlength, hexpect, -⟩ := s.writeCmd_keeps d
    exact ⟨fun _ => hoffset, fun _ => hlength, fun _ => hexpect⟩
  · obtain ⟨hoffset, hlength, hexpect⟩ := s.writeReg_args r d
    exact ⟨fun ha => hoffset (mt (congrArg Reg.addr) ha), fun ha => hlength (mt (congrArg Reg.addr) ha),
      fun ha => hexpect (mt (congrArg Reg.addr) ha)⟩
  · exact ⟨fun _ => rfl, fun _ => rfl, fun _ => rfl⟩
  · exact ⟨fun _ => rfl, fun _ => rfl, fun _ => rfl⟩

/-- A bus write leaves the reset number and the host's side alone. -/
theorem State.busWrite_port (a : BusAddr) (d : Word) (s : State) :
    (s.busWrite a d).boot = s.boot ∧ (s.busWrite a d).pending = s.pending ∧
    (s.busWrite a d).owner = s.owner := by
  rcases s.busWrite_cases a d with ⟨-, h⟩ | ⟨r, -, -, h⟩ | ⟨i, -, -, h⟩ | ⟨-, h⟩ <;> rw [h]
  · obtain ⟨-, -, -, -, -, -, -, hboot, hpending, howner, -⟩ := s.writeCmd_keeps d
    exact ⟨hboot, hpending, howner⟩
  · obtain ⟨-, -, -, -, -, -, hboot, hpending, howner, -⟩ := s.writeReg_keeps r d
    exact ⟨hboot, hpending, howner⟩
  · exact ⟨rfl, rfl, rfl⟩
  · exact ⟨rfl, rfl, rfl⟩

/-! A bus read at a register's address (R74). -/

/-- BUS.RD of a register's address sends that register's value to the host (R77). -/
theorem exec_busRd_reg (r : Reg) (s : State) : exec (.busRd r.addr) s = .next (s.reply (s.readReg r)) :=
  congrArg (fun v => Host.Outcome.next (s.reply v)) (s.busRead_reg r)

/-! The same write twice (R44). -/

theorem Memory.store_store_same (m : Memory) (i : Nat) (v : Byte) :
    Memory.store (Memory.store m i v) i v = Memory.store m i v := by
  induction m with
  | nil => simp [Memory.store]
  | cons c m ih =>
    obtain ⟨a, b⟩ := c
    by_cases lt : i < a
    · simp [Memory.store, lt]
    · by_cases e : i = a
      · simp [Memory.store, e]
      · simp [Memory.store, lt, e, ih]

/-- A CRC command run again over the same window gives the same result. -/
theorem State.crcRun_latchCmd_twice (d : Word) (f : Crc → Bool) (s : State) :
    (((s.latchCmd d).crcRun f).latchCmd d).crcRun f = (s.latchCmd d).crcRun f := by
  rcases Nat.lt_or_ge s.bufSize.toNat (s.offset.toNat + s.length.toNat) with bad | ok
  · rw [State.crcRun_latchCmd_of_not_window d f bad]
    exact State.crcRun_latchCmd_of_not_window d f bad
  · rw [State.crcRun_latchCmd_of_window d f ok]
    exact State.crcRun_latchCmd_of_window d f ok

/-- FLT.DEC run again over the same window gives the same result. -/
theorem State.fltDec_latchCmd_twice (d : Word) (w : BitVec 4) (s : State) :
    (((s.latchCmd d).fltDec w).latchCmd d).fltDec w = (s.latchCmd d).fltDec w := by
  by_cases hw : w = 2#4 ∨ w = 4#4
  · rcases Nat.lt_or_ge s.bufSize.toNat (s.offset.toNat + w.toNat) with bad | ok
    · rw [State.fltDec_latchCmd_of_not_window d hw bad]
      exact State.fltDec_latchCmd_of_not_window d hw bad
    · rw [State.fltDec_latchCmd_of_window d hw ok]
      exact State.fltDec_latchCmd_of_window d hw ok
  · rw [State.fltDec_latchCmd_of_illegal_width (s := s) d hw]
    exact State.fltDec_latchCmd_of_illegal_width d hw

/-- A command run again gives the same result, because it changes nothing that it reads. -/
theorem State.writeCmd_twice (d : Word) (s : State) : (s.writeCmd d).writeCmd d = s.writeCmd d := by
  simp only [State.writeCmd_eq_runCommand]
  cases decodeCmd d with
  | crcCalc => exact s.crcRun_latchCmd_twice d fun _ => false
  | crcVerify =>
    have expect_kept : ((s.latchCmd d).crcRun (matchFlag · s.expect)).expect = s.expect := by
      unfold State.crcRun
      split <;> rfl
    have twice := s.crcRun_latchCmd_twice d (matchFlag · s.expect)
    simp only [State.runCommand, State.crcVerify_eq_crcRun, State.latchCmd_expect, expect_kept]
    exact twice
  | fltDec w => exact s.fltDec_latchCmd_twice d w
  | illegal => rfl

theorem State.writeReg_twice (r : Reg) (d : Word) (s : State) :
    (s.writeReg r d).writeReg r d = s.writeReg r d := by
  cases r <;> rfl

theorem State.storeByte_twice (i : Nat) (v : Byte) (s : State) :
    (s.storeByte i v).storeByte i v = s.storeByte i v := by
  simp only [State.storeByte, Memory.store_store_same]

theorem State.busWrite_twice (a : BusAddr) (d : Word) (s : State) :
    (s.busWrite a d).busWrite a d = s.busWrite a d := by
  rcases s.busWrite_cases a d with ⟨rfl, h⟩ | ⟨r, hr, rfl, h⟩ | ⟨i, hi, ha, h⟩ | ⟨-, h⟩ <;> rw [h]
  · exact s.writeCmd_twice d
  · rw [State.busWrite_reg hr, State.writeReg_twice]
  · rw [State.busWrite_buf (s := s.storeByte i _) ha hi, State.storeByte_twice]
  · exact h

end Sys2Proof.Machine

namespace Sys2Proof.Proofs

open Sys2Proof.Machine

/-- Settles O30: by the address, and for CMD by the command. -/
theorem writeFrame : Obligations.WriteFrame := by
  intro s t a d ht
  obtain rfl : s.busWrite a d = t := Host.Outcome.next.inj ht
  obtain ⟨hoffset, hlength, hexpect⟩ := s.busWrite_args a d
  obtain ⟨hboot, hpending, howner⟩ := s.busWrite_port a d
  refine ⟨fun ha => ?_, fun h => ?_, fun h => ?_, hoffset, hlength, hexpect,
    fun ha => s.busWrite_bufSize_of_ne ha d, fun j hj => ?_, s.busWrite_bufCap a d, hboot, hpending, howner,
    s.busWrite_replies a d⟩
  · obtain ⟨hcmd, hstatus, -⟩ := s.busWrite_of_ne_cmd ha d
    exact ⟨hcmd, hstatus⟩
  · by_cases ha : a = 0x0000#16
    · subst ha
      obtain ⟨hcalc, hverify⟩ := h.resolve_left (not_not_intro rfl)
      exact s.writeCmd_crcResult hcalc hverify
    · obtain ⟨-, -, hcrc, -⟩ := s.busWrite_of_ne_cmd ha d
      exact hcrc
  · by_cases ha : a = 0x0000#16
    · subst ha
      exact s.writeCmd_fltResult (h.resolve_left (not_not_intro rfl))
    · obtain ⟨-, -, -, hflt⟩ := s.busWrite_of_ne_cmd ha d
      exact hflt
  · exact (s.busWrite_bufByte_cases a d j).resolve_right fun ⟨stored, _⟩ => hj stored

/-- Settles O31: each thing that a bus write can do, done twice, is done once. -/
theorem writesCanBeRepeated : Obligations.WritesCanBeRepeated := by
  intro s t a d ht
  obtain rfl : s.busWrite a d = t := Host.Outcome.next.inj ht
  exact congrArg Host.Outcome.next (s.busWrite_twice a d)

/-- Settles O18: the bus read at each register's address is the read of that register. -/
theorem readReturnsRegister : Obligations.ReadReturnsRegister := fun s =>
  ⟨exec_busRd_reg .cmd s, exec_busRd_reg .status s, exec_busRd_reg .offset s, exec_busRd_reg .length s,
    exec_busRd_reg .expect s, exec_busRd_reg .crcResult s, exec_busRd_reg .fltResult s,
    exec_busRd_reg .bufSize s, exec_busRd_reg .bufCap s⟩

/-- Settles O19: the bus read of a buffer address returns its byte. -/
theorem readReturnsBufferByte : Obligations.ReadReturnsBufferByte := by
  intro s a lo hi
  have value := State.busRead_buf (s := s) (a := a) (i := a.toNat - 0x8000) (by omega) (by omega)
  exact congrArg (fun v => Host.Outcome.next (s.reply v)) value

/-- Settles O20: only the host's replies change. -/
theorem readChangesNothing : Obligations.ReadChangesNothing := by
  intro s t a ht
  obtain rfl : s.reply (s.busRead a) = t := Host.Outcome.next.inj ht
  exact ⟨rfl, rfl, rfl, rfl, rfl, rfl, rfl, rfl, rfl, fun _ => rfl, rfl, rfl, rfl⟩

/-- Settles O23: the read returns the byte at its address, which the write stored. -/
theorem readAfterWriteReturnsTheByte : Obligations.ReadAfterWriteReturnsTheByte := by
  intro s t a d lo hi ht
  obtain rfl : s.busWrite a d = t := Host.Outcome.next.inj ht
  rw [State.busWrite_buf (i := a.toNat - 0x8000) (by omega) (by omega)]
  have read := readReturnsBufferByte (s.storeByte (a.toNat - 0x8000) (d.extractLsb' 0 8)) a lo hi
  rwa [State.bufByte_storeByte_same] at read

/-- Settles O44: a CRC command is a CMD write that writes no FLT_RESULT. -/
theorem crcCommandsFrame : Obligations.CrcCommandsFrame := by
  intro s t i hi ht
  obtain ⟨d, hd, rfl⟩ : ∃ d, (∀ w, decodeCmd d ≠ .fltDec w) ∧ s.writeCmd d = t := by
    rcases hi with rfl | rfl
    · exact ⟨commandWord 0#4 0x1#4, by simp, Host.Outcome.next.inj ht⟩
    · exact ⟨commandWord 0#4 0x2#4, by simp, Host.Outcome.next.inj ht⟩
  obtain ⟨-, hoffset, hlength, hexpect, hsize, hcap, -, hkept⟩ := s.writeCmd_keeps d
  exact ⟨hoffset, hlength, hexpect, s.writeCmd_fltResult hd, hsize, hcap, s.writeCmd_bufByte d, hkept⟩

/-- Settles O48: FLT.DEC is a CMD write that writes no CRC_RESULT. -/
theorem fltDecFrame : Obligations.FltDecFrame := by
  intro s t w ht
  rw [exec_fltDec] at ht
  obtain rfl : s.writeCmd (commandWord w 0x3#4) = t := Host.Outcome.next.inj ht
  obtain ⟨-, hoffset, hlength, hexpect, hsize, hcap, -, hkept⟩ := s.writeCmd_keeps (commandWord w 0x3#4)
  exact ⟨hoffset, hlength, hexpect, s.writeCmd_crcResult (by simp) (by simp), hsize, hcap,
    s.writeCmd_bufByte _, hkept⟩

end Sys2Proof.Proofs

/-! PROOFS. What STATUS says of a command's result, and what the results depend on (10_state R20, 41_crc16 R88, R89,
42_float_codec R100, 70_reset R122..R125). -/

namespace Sys2Proof.Machine

/-! What STATUS says after a command's body (R20, R125). -/

/-- A CRC command without error leaves the window's CRC in CRC_RESULT, and in MATCH what `f` says of it. -/
theorem State.crcRun_of_err_none {f : Crc → Bool} {s : State} (h : (s.crcRun f).status.err = .none) :
    (s.crcRun f).crcResult = (crc16 s.crcWindow).setWidth 32 ∧
    (s.crcRun f).status.matched = f (crc16 s.crcWindow) := by
  cases ok : s.crcWindowOk
  · simp [State.crcRun, ok] at h
  · simp [State.crcRun, ok]

/-- A CRC command that ends with MATCH = 1 ends without error. -/
theorem State.crcRun_of_matched {f : Crc → Bool} {s : State} (h : (s.crcRun f).status.matched = true) :
    (s.crcRun f).status.err = .none := by
  cases ok : s.crcWindowOk
  · simp [State.crcRun, ok] at h
  · simp [State.crcRun, ok]

/-- FLT.DEC without error leaves the staged window in FLT_RESULT. -/
theorem State.fltDec_of_err_none {w : BitVec 4} {s : State} (h : (s.fltDec w).status.err = .none) :
    (s.fltDec w).fltResult = stagedWord (s.fltWindow w) := by
  rcases s.fltDec_cases w with ⟨-, -, e⟩ | ⟨-, -, e⟩ | ⟨-, e⟩
  · rw [e]
    rfl
  · simp [e] at h
  · simp [e] at h

theorem State.fltDec_matched (w : BitVec 4) (s : State) : (s.fltDec w).status.matched = false := by
  rcases s.fltDec_cases w with ⟨-, -, h⟩ | ⟨-, -, h⟩ | ⟨-, h⟩ <;> rw [h] <;> rfl

/-! What STATUS says after a CMD write (R70). -/

/-- LAST_OP is the OP of the word written. -/
theorem State.writeCmd_lastOp (d : Word) (s : State) : (s.writeCmd d).status.lastOp = cmdOp d := by
  rcases s.writeCmd_cases d with ⟨c, m, h⟩ | ⟨w, h⟩ | ⟨e, -, h⟩ <;> rw [h] <;> rfl

theorem State.writeCmd_memRead (d : Word) (s : State) (off n : Nat) :
    (s.writeCmd d).memRead off n = s.memRead off n :=
  State.memRead_ext fun k _ => s.writeCmd_bufByte d (off + k)

theorem State.writeCmd_crcWindow (d : Word) (s : State) : (s.writeCmd d).crcWindow = s.crcWindow := by
  obtain ⟨-, hoffset, hlength, -⟩ := s.writeCmd_keeps d
  rw [State.crcWindow, hoffset, hlength, s.writeCmd_memRead]
  rfl

theorem State.writeCmd_fltWindow (d : Word) (w : BitVec 4) (s : State) :
    (s.writeCmd d).fltWindow w = s.fltWindow w := by
  obtain ⟨-, hoffset, -⟩ := s.writeCmd_keeps d
  rw [State.fltWindow, hoffset, s.writeCmd_memRead]
  rfl

theorem State.writeCmd_expect (d : Word) (s : State) : (s.writeCmd d).expect = s.expect := by
  obtain ⟨-, -, -, hexpect, -⟩ := s.writeCmd_keeps d
  exact hexpect

theorem State.writeCmd_crcCalc (s : State) :
    s.writeCmd (commandWord 0#4 0x1#4) = (s.latchCmd (commandWord 0#4 0x1#4)).crcRun fun _ => false := rfl

theorem State.writeCmd_crcVerify (s : State) :
    s.writeCmd (commandWord 0#4 0x2#4) =
      (s.latchCmd (commandWord 0#4 0x2#4)).crcRun fun c => decide (c = s.expect.extractLsb' 0 16) := by
  simp only [← matchFlag_eq]
  rfl

theorem State.writeCmd_fltDec (w : BitVec 4) (s : State) :
    s.writeCmd (commandWord w 0x3#4) = (s.latchCmd (commandWord w 0x3#4)).fltDec w := by
  rw [State.writeCmd_eq_runCommand, decodeCmd_fltDec]
  rfl

theorem State.writeCmd_illegal {d : Word} (hd : decodeCmd d = .illegal) (s : State) :
    s.writeCmd d = (s.latchCmd d).raise .illegalCmd := by
  rw [State.writeCmd_eq_runCommand, hd]
  rfl

/-- MATCH is 1 only after a CRC.VERIFY without error of a window whose CRC is EXPECT[15:0]. -/
theorem State.writeCmd_matched {d : Word} {s : State} (h : (s.writeCmd d).status.matched = true) :
    (s.writeCmd d).status.err = .none ∧ d = commandWord 0#4 0x2#4 ∧
    crc16 s.crcWindow = s.expect.extractLsb' 0 16 := by
  rcases decodeCmd_cases d with ⟨-, rfl⟩ | ⟨-, rfl⟩ | ⟨w, -, rfl⟩ | hd
  · rw [State.writeCmd_crcCalc] at h
    obtain ⟨-, hm⟩ := State.crcRun_of_err_none (State.crcRun_of_matched h)
    cases h.symm.trans hm
  · rw [State.writeCmd_crcVerify] at h ⊢
    have herr := State.crcRun_of_matched h
    obtain ⟨-, hm⟩ := State.crcRun_of_err_none herr
    exact ⟨herr, rfl, of_decide_eq_true (hm.symm.trans h)⟩
  · rw [State.writeCmd_fltDec, State.fltDec_matched] at h
    cases h
  · rw [State.writeCmd_illegal hd] at h
    cases h

/-- A CMD write that ends without error is of one of the three commands (R107). -/
theorem State.writeCmd_of_err_none {d : Word} {s : State} (h : (s.writeCmd d).status.err = .none) :
    d = commandWord 0#4 0x1#4 ∨ d = commandWord 0#4 0x2#4 ∨ ∃ w, d = commandWord w 0x3#4 := by
  rcases decodeCmd_cases d with ⟨-, hd⟩ | ⟨-, hd⟩ | ⟨w, -, hd⟩ | hd
  · exact .inl hd
  · exact .inr (.inl hd)
  · exact .inr (.inr ⟨w, hd⟩)
  · rw [State.writeCmd_illegal hd] at h
    cases h

/-- After a CMD write that ends without error with LAST_OP = 1 or 2, CRC_RESULT is the window's CRC (R125). -/
theorem State.writeCmd_crcResultFresh {d : Word} {s : State} (h : (s.writeCmd d).crcResultFresh) :
    (s.writeCmd d).crcResult = (crc16 s.crcWindow).setWidth 32 := by
  obtain ⟨hop, herr⟩ := h
  rw [State.writeCmd_lastOp] at hop
  rcases State.writeCmd_of_err_none herr with rfl | rfl | ⟨w, rfl⟩
  · rw [State.writeCmd_crcCalc] at herr ⊢
    exact (State.crcRun_of_err_none herr).1
  · rw [State.writeCmd_crcVerify] at herr ⊢
    exact (State.crcRun_of_err_none herr).1
  · simp at hop

/-- After a CMD write that ends without error with LAST_OP = 3, FLT_RESULT is the staged window (R125). -/
theorem State.writeCmd_fltResultFresh {d : Word} {s : State} (h : (s.writeCmd d).fltResultFresh) :
    (s.writeCmd d).fltResult = stagedWord (s.fltWindow (cmdWidth d)) := by
  obtain ⟨hop, herr⟩ := h
  rw [State.writeCmd_lastOp] at hop
  rcases State.writeCmd_of_err_none herr with rfl | rfl | ⟨w, rfl⟩
  · simp at hop
  · simp at hop
  · rw [State.writeCmd_fltDec] at herr ⊢
    rw [cmdWidth_commandWord]
    exact State.fltDec_of_err_none herr

/-- After a CMD write that ends without error with LAST_OP = 2, MATCH compares the window's CRC with EXPECT[15:0]
(R125). -/
theorem State.writeCmd_matchFresh {d : Word} {s : State} (h : (s.writeCmd d).matchFresh) :
    (s.writeCmd d).status.matched = decide (crc16 s.crcWindow = s.expect.extractLsb' 0 16) := by
  obtain ⟨hop, herr⟩ := h
  rw [State.writeCmd_lastOp] at hop
  rcases State.writeCmd_of_err_none herr with rfl | rfl | ⟨w, rfl⟩
  · simp at hop
  · rw [State.writeCmd_crcVerify] at herr ⊢
    exact (State.crcRun_of_err_none herr).2
  · simp at hop

/-- The low half of a zero-extended CRC is the CRC (R24). -/
theorem low16_crc (c : Crc) : (low16 (c.setWidth 32)).extractLsb' 0 16 = c := by
  apply BitVec.eq_of_getLsbD_eq
  intro i hi
  simp [low16, hi, show i < 32 by omega]

/-! What the result of a CRC command depends on (R89, R124). -/

/-- A written byte reads the same after any reset (R122). -/
theorem State.bufByte_withBuffer_of_written {s : State} {i : Nat} (h : Memory.lookup s.buf i ≠ none) (boot : Nat) :
    (s.withBuffer s.buf boot).bufByte i = s.bufByte i := by
  obtain ⟨b, hb⟩ := Option.ne_none_iff_exists'.mp h
  simp only [State.bufByte, State.withBuffer, hb, Option.getD_some]

end Sys2Proof.Machine

namespace Sys2Proof.Proofs

open Sys2Proof.Machine

/-- Settles O53: only a CMD write changes CMD or STATUS, and MATCH comes from CRC.VERIFY alone. -/
theorem onlyCommandsWriteStatus : Obligations.OnlyCommandsWriteStatus := by
  intro s t i ht
  refine ⟨fun a hi => ?_, fun a d hi ha => ?_, fun not_read not_elsewhere => ?_⟩
  · subst hi
    obtain rfl : s.reply (s.busRead a) = t := Host.Outcome.next.inj ht
    exact ⟨rfl, rfl⟩
  · subst hi
    obtain rfl : s.busWrite a d = t := Host.Outcome.next.inj ht
    obtain ⟨hcmd, hstatus, -⟩ := s.busWrite_of_ne_cmd ha d
    exact ⟨hcmd, hstatus⟩
  · obtain ⟨d, rfl⟩ : ∃ d, t = s.writeCmd d := by
      rcases exec_cases ht with ⟨a, hi, -⟩ | ⟨a, d, hi, rfl⟩ | ⟨d, -, -, rfl⟩
      · exact absurd hi (not_read a)
      · obtain rfl := not_elsewhere a d hi
        exact ⟨d, rfl⟩
      · exact ⟨d, rfl⟩
    obtain ⟨hcmd, -⟩ := s.writeCmd_keeps d
    rw [hcmd]
    exact ⟨s.writeCmd_lastOp d, State.writeCmd_matched⟩

/-- Settles O54: a command keeps what it reads, so its result is that of the state it leaves. -/
theorem freshResultsAreResults : Obligations.FreshResultsAreResults := by
  intro s t d ht
  obtain rfl : s.writeCmd d = t := Host.Outcome.next.inj ht
  have crc_window := s.writeCmd_crcWindow d
  have flt_window := s.writeCmd_fltWindow d
  obtain ⟨hcmd, -⟩ := s.writeCmd_keeps d
  refine ⟨fun h => ?_, fun h => ?_, fun h => ?_⟩
  · exact (State.writeCmd_crcResultFresh h).trans (by rw [← crc_window]; rfl)
  · exact (State.writeCmd_fltResultFresh h).trans (by rw [← flt_window, hcmd]; rfl)
  · rw [State.writeCmd_matchFresh h, ← crc_window, s.writeCmd_expect, decide_eq_true_iff]
    rfl

/-- Settles O41: EXPECT takes the CRC that CRC.VERIFY finds again. -/
theorem verifyAcceptsWhatCalcComputed : Obligations.VerifyAcceptsWhatCalcComputed := by
  intro s ok
  have calc_result := (crcCalcResult.2 s).1 ok
  refine ⟨_, _, _, calc_result, exec_busWr_reg (r := .expect) (by decide) _ _,
    (crcVerifyResult.2 _).1 ok, decide_eq_true ?_, rfl⟩
  exact (low16_crc _).symm

/-- Settles O42: CRC_RESULT is the CRC of the window's bytes, and STATUS is the same over every valid window. -/
theorem crcDependsOnWindowBytesAlone : Obligations.CrcDependsOnWindowBytesAlone := by
  intro s s' t t' ok ok' same ht ht'
  obtain rfl := Host.Outcome.next.inj (((crcCalcResult.2 s).1 ok).symm.trans ht)
  obtain rfl := Host.Outcome.next.inj (((crcCalcResult.2 s').1 ok').symm.trans ht')
  exact ⟨congrArg (fun bs => (crc16 bs).setWidth 32) same, rfl⟩

/-- Settles O47: the bytes that width 2 does not stage are zero. -/
theorem widthTwoIsWidthFourOfThePaddedBytes : Obligations.WidthTwoIsWidthFourOfThePaddedBytes := by
  intro s s' t t' ok ok' bytes ht ht'
  rw [exec_fltDec_eq_fltDec, State.fltDec_latchCmd_of_window _ (.inl rfl) ok] at ht
  rw [exec_fltDec_eq_fltDec, State.fltDec_latchCmd_of_window _ (.inr rfl) ok'] at ht'
  cases ht
  cases ht'
  exact (congrArg stagedWord bytes).symm

/-- Settles O56: another reset number leaves the bytes of a written window as they are. -/
theorem writtenWindowIgnoresResetContents : Obligations.WrittenWindowIgnoresResetContents := by
  intro s t t' i boot hi written ht ht'
  have window : (s.withBuffer s.buf boot).crcWindow = s.crcWindow :=
    State.memRead_ext fun k hk => State.bufByte_withBuffer_of_written (written k hk) boot
  obtain ⟨d, not_flt, he⟩ : ∃ d, (∀ w, decodeCmd d ≠ .fltDec w) ∧ ∀ u, exec i u = .next (u.writeCmd d) := by
    rcases hi with rfl | rfl
    · exact ⟨commandWord 0#4 0x1#4, by simp, exec_crcCalc⟩
    · exact ⟨commandWord 0#4 0x2#4, by simp, exec_crcVerify⟩
  obtain rfl := Host.Outcome.next.inj ((he s).symm.trans ht)
  obtain rfl := Host.Outcome.next.inj ((he _).symm.trans ht')
  obtain ⟨-, -, -, -, -, -, hbuf, -⟩ := s.writeCmd_keeps d
  calc (s.withBuffer s.buf boot).writeCmd d
    _ = (s.writeCmd d).withBuffer s.buf boot :=
      State.writeCmd_withBuffer (fun _ _ => window) fun w hw => absurd hw (not_flt w)
    _ = (s.writeCmd d).withBuffer (s.writeCmd d).buf boot := by rw [hbuf]

end Sys2Proof.Proofs

/-! PROOFS. The CRC generator as a map of the register: it loses nothing, and it shifts the register out over its own
bytes (41_crc16 R81..R91). -/

namespace Sys2Proof.Machine

/-! Every step of the generator can be undone (R90). -/

/-- Bit 15 of a bit step is the tested bit, because the shift brings 0 in and 0xA001 has bit 15 (R81). -/
theorem getLsbD_crcBit_15 (c : Crc) : (crcBit c).getLsbD 15 = c.getLsbD 0 := by
  rw [getLsbD_crcBit, getLsbD_ushiftRight_one c (by decide), getLsbD_A001 (by decide)]
  simp

/-- Bit `i + 1` is in bit `i` of a bit step, up to the polynomial (R81). -/
theorem getLsbD_succ_of_crcBit (c : Crc) {i : Nat} (hi : i < 15) :
    c.getLsbD (i + 1) = ((crcBit c).getLsbD i ^^ (c.getLsbD 0 && (0xA001#16).getLsbD i)) := by
  rw [getLsbD_crcBit, getLsbD_ushiftRight_one c (by omega), decide_eq_true hi, Bool.true_and, Bool.xor_assoc,
    Bool.xor_self, Bool.xor_false]

theorem crcBit_injective : Function.Injective crcBit := by
  intro c c' h
  have bit_zero : c.getLsbD 0 = c'.getLsbD 0 := by
    rw [← getLsbD_crcBit_15, ← getLsbD_crcBit_15, h]
  apply BitVec.eq_of_getLsbD_eq
  intro i hi
  cases i with
  | zero => exact bit_zero
  | succ i =>
    rw [getLsbD_succ_of_crcBit c (by omega), getLsbD_succ_of_crcBit c' (by omega), h, bit_zero]

theorem crcBits_injective (n : Nat) : Function.Injective (crcBits n) := by
  induction n with
  | zero => exact Function.injective_id
  | succ n ih => exact ih.comp crcBit_injective

/-- Different registers stay different over the same byte. -/
theorem crcByte_injective_left (b : Byte) : Function.Injective (crcByte · b) :=
  (crcBits_injective 8).comp fun _ _ h => (BitVec.xor_left_inj _).mp h

/-- Different bytes make the same register different. -/
theorem crcByte_injective_right (c : Crc) : Function.Injective (crcByte c) :=
  (crcBits_injective 8).comp fun _ _ h => setWidth_injective (by decide) ((BitVec.xor_right_inj _).mp h)

/-- Different registers stay different over the same bytes. -/
theorem foldl_crcByte_injective (bs : List Byte) : Function.Injective (bs.foldl crcByte) := by
  induction bs with
  | nil => exact Function.injective_id
  | cons b bs ih => exact ih.comp (crcByte_injective_left b)

/-- The CRC of a message, with byte `k` set to `b`: the bytes before it, then `b`, then the bytes after it (R83). -/
theorem crc16_set {bs : List Byte} {k : Nat} (hk : k < bs.length) (b : Byte) :
    crc16 (bs.set k b) = (bs.drop (k + 1)).foldl crcByte (crcByte (crc16 (bs.take k)) b) := by
  rw [List.set_eq_take_append_cons_drop, if_pos hk, crc16, List.foldl_append, List.foldl_cons]
  rfl

/-- Messages that differ in one byte have different CRCs. -/
theorem crc16_set_ne {bs : List Byte} {k : Nat} (hk : k < bs.length) {b : Byte} (hb : b ≠ bs[k]) :
    crc16 (bs.set k b) ≠ crc16 bs := by
  intro same
  have old : crc16 (bs.set k bs[k]) = crc16 bs := by rw [List.set_getElem_self]
  rw [← old, crc16_set hk, crc16_set hk] at same
  exact hb (crcByte_injective_right _ (foldl_crcByte_injective _ same))

/-! The bits that are shifted out unchanged (R91). -/

theorem crcBit_of_getLsbD_zero {c : Crc} (h : c.getLsbD 0 = false) : crcBit c = c >>> 1 := by
  simp only [crcBit, h, Bool.false_eq_true, if_false]

/-- Where the low bits are 0, bit steps only shift. -/
theorem crcBits_of_low_zero {n : Nat} {c : Crc} (h : ∀ i, i < n → c.getLsbD i = false) : crcBits n c = c >>> n := by
  induction n generalizing c with
  | zero => simp [crcBits]
  | succ n ih =>
    have shifted : ∀ i, i < n → (c >>> 1).getLsbD i = false := fun i hi => by
      rw [BitVec.getLsbD_ushiftRight, h (1 + i) (by omega)]
    rw [crcBits, crcBit_of_getLsbD_zero (h 0 (by omega)), ih shifted, ← BitVec.shiftRight_add, Nat.add_comm]

/-- A byte step over the register's own low byte shifts the high byte down (R82). -/
theorem crcByte_own_low_byte (c : Crc) : crcByte c (c.extractLsb' 0 8) = (c.extractLsb' 8 8).setWidth 16 := by
  have cleared : c ^^^ (c.extractLsb' 0 8).setWidth 16 = c.extractLsb' 8 8 ++ 0#8 := by
    rw [xor_setWidth_byte, BitVec.xor_self]
  have low_zero : ∀ i, i < 8 → (c.extractLsb' 8 8 ++ 0#8).getLsbD i = false := fun i hi => by
    rw [BitVec.getLsbD_append, if_pos hi]
    exact BitVec.getLsbD_zero
  rw [crcByte, cleared, crcBits_of_low_zero low_zero]
  apply BitVec.eq_of_getLsbD_eq
  intro i hi
  rw [BitVec.getLsbD_ushiftRight, BitVec.getLsbD_append, if_neg (by omega), Nat.add_sub_cancel_left]
  simp [hi]

/-- A byte step over a register that holds just that byte leaves 0. -/
theorem crcByte_of_byte (b : Byte) : crcByte (b.setWidth 16) b = 0#16 := by
  rw [crcByte, BitVec.xor_self, crcBits_of_low_zero fun i _ => BitVec.getLsbD_zero]
  rfl

/-! One byte of a window (R47). -/

/-- Flipping a bit makes another byte. -/
theorem xor_twoPow_ne (b : Byte) {k : Nat} (hk : k < 8) : b ^^^ BitVec.twoPow 8 k ≠ b := by
  intro h
  have bit := congrArg (·.getLsbD k) h
  simp [hk] at bit

/-- A store inside a window replaces that byte of it. -/
theorem State.memRead_storeByte (s : State) (off n k : Nat) (v : Byte) :
    (s.storeByte (off + k) v).memRead off n = (s.memRead off n).set k v := by
  refine List.ext_getElem (by simp) fun i hi _ => ?_
  rw [List.getElem_set]
  simp only [State.memRead, List.getElem_map, List.getElem_range]
  split
  · rename_i e
    rw [e, State.bufByte_storeByte_same]
  · rename_i ne
    exact State.bufByte_storeByte_other s v fun e => ne (Nat.add_left_cancel e).symm

theorem State.storeByte_crcWindow (s : State) (k : Nat) (v : Byte) :
    (s.storeByte (s.offset.toNat + k) v).crcWindow = s.crcWindow.set k v :=
  s.memRead_storeByte s.offset.toNat s.length.toNat k v

theorem crcResult_of_exec_crcCalc {s t : State} (ok : s.offset.toNat + s.length.toNat ≤ s.bufSize.toNat)
    (ht : exec .crcCalc s = .next t) : t.crcResult = (crc16 s.crcWindow).setWidth 32 := by
  rw [exec_crcCalc_eq_crcRun, State.crcRun_latchCmd_of_window _ _ ok] at ht
  cases ht
  rfl

end Sys2Proof.Machine

namespace Sys2Proof.Proofs

open Sys2Proof.Machine

/-- Settles O36: the first result byte shifts the high byte down, and the second clears it. -/
theorem residueIsZero : Obligations.ResidueIsZero := by
  intro bs
  calc crc16 (bs ++ resultBytes (crc16 bs))
    _ = crcByte (crcByte (crc16 bs) ((crc16 bs).extractLsb' 0 8)) ((crc16 bs).extractLsb' 8 8) :=
      List.foldl_append ..
    _ = 0#16 := by rw [crcByte_own_low_byte, crcByte_of_byte]

/-- Settles O43: the flipped byte differs, so the CRC does, and CRC_RESULT holds all of it. -/
theorem singleBitFlipChangesTheResult : Obligations.SingleBitFlipChangesTheResult := by
  intro s t t' j k ok lo hi hk ht ht' same
  obtain ⟨m, rfl⟩ := Nat.exists_eq_add_of_le lo
  have inside : m < s.crcWindow.length := by
    rw [State.crcWindow, State.memRead_length]
    omega
  have old_byte : s.crcWindow[m] = s.bufByte (s.offset.toNat + m) := by
    simp [State.crcWindow, State.memRead]
  rw [crcResult_of_exec_crcCalc ok ht, crcResult_of_exec_crcCalc (s := s.storeByte _ _) ok ht',
    State.storeByte_crcWindow] at same
  refine crc16_set_ne inside ?_ (setWidth_injective (by decide) same).symm
  rw [old_byte]
  exact xor_twoPow_ne _ hk

/-- Settles O35: nine byte steps evaluated. -/
theorem publishedCheckValue : Obligations.PublishedCheckValue := by
  unfold Obligations.PublishedCheckValue
  decide +kernel

/-- Settles O37: a sum of two 32-bit values fits in 33 bits. -/
theorem windowCheckNeverWraps : Obligations.WindowCheckNeverWraps := by
  intro s off len
  have fits : off.toNat + len.toNat < 2 ^ 33 := by omega
  simp only [State.windowOk, BitVec.toNat_add, BitVec.toNat_setWidth_of_le (show 32 ≤ 33 by decide),
    Nat.mod_eq_of_lt fits]

/-- Settles O59: the window lists the indices from 0 up. -/
theorem memReadListsBytesInOrder : Obligations.MemReadListsBytesInOrder := by
  intro s off n
  refine ⟨s.memRead_length off n, fun k hk => ?_⟩
  rw [State.memRead, List.getElem?_map, List.getElem?_range hk]
  rfl

end Sys2Proof.Proofs

/-! PROOFS. A binary32 datum gives its pattern back (42_float_codec R98). -/

namespace Sys2Proof.Machine

/-- A pattern is its sign, its exponent field and its fraction field (R98). -/
theorem word_eq_of_fields {v w : Word} (sign : v.getLsbD 31 = w.getLsbD 31)
    (exponent : (v.extractLsb' 23 8).toNat = (w.extractLsb' 23 8).toNat)
    (fraction : (v.extractLsb' 0 23).toNat = (w.extractLsb' 0 23).toNat) : v = w := by
  apply BitVec.eq_of_getLsbD_eq
  intro i hi
  by_cases low : i < 23
  · have bit := congrArg (·.getLsbD i) (BitVec.eq_of_toNat_eq fraction)
    simpa [low] using bit
  · by_cases mid : i < 31
    · have bit := congrArg (·.getLsbD (i - 23)) (BitVec.eq_of_toNat_eq exponent)
      simpa [show i - 23 < 8 by omega, show 23 + (i - 23) = i by omega] using bit
    · obtain rfl : i = 31 := by omega
      exact sign

/-- The sign, the exponent field and the fraction field of a datum's pattern; none for a NaN, whose fraction the
datum does not keep. A significand below 2^23 is that of a subnormal number or a zero. -/
def Binary32.fields : Binary32 → Option (Bool × Nat × Nat)
  | .infinity negative => some (negative, 255, 0)
  | .nan _ => none
  | .finite negative significand exponent =>
    if significand < 2 ^ 23 then some (negative, 0, significand)
    else some (negative, (exponent + 150).toNat, significand - 2 ^ 23)

/-- The datum of a pattern that is no NaN keeps the three fields. -/
theorem Binary32.fields_binary32Value {v : Word} (h : ∀ q, binary32Value v ≠ .nan q) :
    (binary32Value v).fields =
      some (v.getLsbD 31, (v.extractLsb' 23 8).toNat, (v.extractLsb' 0 23).toNat) := by
  have fraction_lt := (v.extractLsb' 0 23).isLt
  revert h
  simp only [binary32Value]
  split
  · rename_i he
    split
    · rename_i hf
      intro _
      rw [Binary32.fields, he, hf]
    · exact fun h => absurd rfl (h _)
  · split
    · rename_i he
      intro _
      rw [Binary32.fields, if_pos fraction_lt, he]
    · intro _
      rw [Binary32.fields, if_neg (by omega), Nat.add_sub_cancel_left, Int.sub_add_cancel, Int.toNat_natCast]

end Sys2Proof.Machine

namespace Sys2Proof.Proofs

open Sys2Proof.Machine

/-- Settles O49: the datum gives the three fields back, and they are the whole pattern. -/
theorem valueDeterminesPattern : Obligations.ValueDeterminesPattern := by
  intro v w same not_nan
  have fields_v := Binary32.fields_binary32Value not_nan
  have fields_w := Binary32.fields_binary32Value (same ▸ not_nan)
  rw [← same, fields_v, Option.some.injEq, Prod.mk.injEq, Prod.mk.injEq] at fields_w
  obtain ⟨sign, exponent, fraction⟩ := fields_w
  exact word_eq_of_fields sign exponent fraction

end Sys2Proof.Proofs
